-- ==== Sys2Proof/Word.lean ====
section
/-! DEFINITION. The words of the GN16: addresses, lanes, samples, frames of samples, line bits. -/

namespace Sys2Proof

/-- A node address, 0 to 15 (R76, R149). -/
abbrev Addr := Fin 16

/-- A lane number, 0 to 3 (R84). -/
abbrev Lane := Fin 4

/-- A signed 16-bit two's complement sample (00_scope 5.2). -/
abbrev Sample := BitVec 16

/-- One block of 64 samples (00_scope 5.1). -/
abbrev Frame := Vector Sample 64

/-- 64 zero samples. -/
def silence : Frame := Vector.replicate 64 0

/-- `v` with place `i` holding `a`. -/
def put {α : Type} {n : Nat} (v : Vector α n) (i : Fin n) (a : α) : Vector α n :=
  v.set i.val a i.isLt

end Sys2Proof
end

