-- ==== Sys2Proof/Syntax.lean ====
section
/-! DEFINITION. The commands of the GN16: one constructor of `Instr` for each row of
spec/opcode_table.json, with what reaches the chip from outside at that event as operands. -/

namespace Sys2Proof

/-- The strap pin levels at reset release, `true` for VDD (Table 12-10). -/
structure StrapPins where
  addr   : BitVec 4
  role   : BitVec 2
  lanes  : BitVec 2
  policy : Bool
  lastOn : Bool
  sens   : BitVec 2
  hang   : BitVec 2
  gain   : BitVec 3
  deriving DecidableEq, Repr

/-- The levels of the two key pins at a cycle start, `true` for high.
A low pin is a pressed key (Table 12-10). -/
structure KeyPins where
  keyA : Bool
  keyB : Bool
  deriving DecidableEq, Repr

/-- What the receiver reads for one slot (R33, R36): `before` consecutive recessive readings just before
the search span opens, then one reading for each bit time from its opening on, `true` for recessive. The
frame bits follow the start edge one reading a bit. Readings beyond the list are recessive, as the idle
line reads. -/
structure SlotRx where
  before   : Nat
  readings : List Bool
  deriving DecidableEq, Repr

/-- The commands. An operand is an input of the chip at the event: pin levels, line bits as read
(`true` for recessive, the first bit most significant), the index of an instant, slot or lane, the
position of a start edge. -/
inductive Instr where
  /-- HARDWARE_RESET (R65): power-on or the RESET pin. -/
  | hardwareReset
  /-- RESET_RELEASE (R149): straps and keys are sampled. -/
  | resetRelease (straps : StrapPins) (keys : KeyPins)
  /-- OUTPUT_INSTANT (R2): output instant `k` of the cycle, 0 to 62. -/
  | outputInstant (k : Fin 63)
  /-- CYCLE_TIMER_EXPIRY (R49). -/
  | cycleTimerExpiry (keys : KeyPins)
  /-- COLD_START_EXPIRY (R53). -/
  | coldStartExpiry
  /-- BEAT_WAIT_OPEN (R50). -/
  | beatWaitOpen
  /-- HOLDER_BEAT_REQUEST (R60). -/
  | holderBeatRequest
  /-- TAKER_DECISION (R61). -/
  | takerDecision
  /-- TAKER_BEAT_START (R61). -/
  | takerBeatStart
  /-- DEFERRED_BEAT_START (R53, R60, R61). -/
  | deferredBeatStart
  /-- GOOD_BEAT_DELIVERED (R50): the 32 bits of the candidate as read, first bit most significant. -/
  | goodBeatDelivered (word : BitVec 32) (keys : KeyPins)
  /-- BEAT_CANDIDATE_DROPPED (R39): the 32 bits from the candidate's start edge on. -/
  | beatCandidateDropped (word : BitVec 32)
  /-- BEAT_READBACK_OUTCOME (R43): the line as read back at each bit of the own beat. -/
  | beatReadbackOutcome (read : BitVec 32) (keys : KeyPins)
  /-- BEAT_HORIZON (R63). -/
  | beatHorizon (keys : KeyPins)
  /-- DETECTOR_PUBLICATION (R17). -/
  | detectorPublication
  /-- OWN_REPORT_SLOT_START (R66). -/
  | ownReportSlotStart
  /-- REPORT_READBACK_OUTCOME (R69): the line as read back at each bit of the own report. -/
  | reportReadbackOutcome (read : BitVec 83)
  /-- REPORT_SLOT_DELIVERED (R73): what was read for report slot `slot`. -/
  | reportSlotDelivered (slot : Addr) (rx : SlotRx)
  /-- LANE_SLOT_START (R125). -/
  | laneSlotStart (lane : Lane)
  /-- LANE_READBACK_OUTCOME (R123): the line as read back at each bit of the own lane frame. Only the bits
  that were sent count. -/
  | laneReadbackOutcome (read : BitVec 1064)
  /-- LANE_SLOT_DELIVERED (R132): what was read for lane slot `lane`. -/
  | laneSlotDelivered (lane : Lane) (rx : SlotRx)
  /-- MIX_FORMATION_END (R143). -/
  | mixFormationEnd
  /-- OUTPUT_FRAME_START (R146): output frame `k` of the cycle. -/
  | outputFrameStart (k : Fin 64)
  /-- CENSUS_CLOSE (R74). -/
  | censusClose
  /-- STATUS_TRANSMISSION_START (R163). -/
  | statusTransmissionStart
  /-- PDM_DATA_SAMPLE (R1): the level of PDM_DATA at a rising edge of PDM_CLK. -/
  | pdmDataSample (level : Bool)
  /-- BEAT_CANDIDATE_FOUND (R39): a dominant reading at position `at'` of the cycle timer, after
  `recessive` consecutive recessive readings. -/
  | beatCandidateFound (at' : Nat) (recessive : Nat)
  /-- RECORD_LAST_STOP_BIT (R163). -/
  | recordLastStopBit
  deriving DecidableEq, Repr

end Sys2Proof
end

