-- ==== Sys2Proof/Decode.lean ====
section
/-! DEFINITION. The command that a word of bits spells. No row of spec/opcode_table.json gives bits:
the GN16 has no command words, so no word spells a command. -/

namespace Sys2Proof

/-- The command a word spells by the table's bits. The table gives bits for no row. -/
def decodeTableWord (_nbits _w : Nat) : Option Instr := none

end Sys2Proof
end

