-- ==== Sys2Proof/Config.lean ====
section
/-! DEFINITION. What the spec leaves to each device or to the instant: free values, without a body. -/

namespace Sys2Proof

/-- One event in the life of the decimation stage since reset release (R3): a PDM_DATA bit, or an
output instant. -/
inductive PdmEvent where
  | bit (level : Bool)
  | instant
  deriving DecidableEq, Repr

/-- The life of the decimation stage at an output instant, newest event first: each block holds the bits
sampled before an output instant and after the one before it, or since reset release. -/
def pdmLife (blocks : List (List Bool)) : List PdmEvent :=
  blocks.flatMap fun bits => .instant :: bits.map .bit

/-- The numbers of bits before the output instants, newest first, where the instants fall as R2 and R48 place
them; `ends i` tells that instant `i` is the completion of its cycle. The instants of a cycle are 192 bit
times apart. Its first one falls up to 33 bit times sooner after the completion before it, when a beat dates
the cycle start back. Its completion falls up to 192 bit times after the instant before it, or later, after 63
others, when a late boundary, at most 528 bit times late and fixed 33 later, stretches the cycle. -/
def GapsOfInstants (gaps : Nat → Nat) : Prop :=
  ∃ ends : Nat → Bool, ∀ i,
    if ends i then
      gaps i ≤ 192 ∨ (gaps i ≤ 192 + 528 + 33 ∧ ∀ j, 1 ≤ j → j ≤ 63 → ends (i + j) = false)
    else if ends (i + 1) then 192 - 33 ≤ gaps i ∧ gaps i ≤ 192
    else gaps i = 192

/-- Passband and group delay of a decimation filter (R3), as DEDUCED in log entry 1, wherever the output
instants fall (R2). For each way they fall, `output` is a response `h` to the bits, each 1 or −1 and the
newest first, on the scale of 32768 and held within the range, but for an `error`. At 3 072 000 bits a second,
from 100 Hz to 7 kHz, the response `H` stays at or above a `floor` that lies above the error, and the delay
`D / H` stays below 32 output samples, at the nominal rate or as they fell. Gain, ripple and error are not
specified: the filter has some. -/
def PassesTheVoiceBand (output : List PdmEvent → Sample) : Prop :=
  ∃ floor error : ℝ, 0 ≤ error ∧ error < 32768 * floor ∧ ∀ gaps, GapsOfInstants gaps → ∃ h : Nat → ℝ,
    (∀ hertz : ℝ, 100 ≤ hertz → hertz ≤ 7000 →
      let tone := fun k : Nat => Complex.exp (-(2 * Real.pi * hertz * k / 3072000) * Complex.I)
      ∃ H D : ℂ, HasSum (fun k => h k * tone k) H ∧ HasSum (fun k => k * h k * tone k) D ∧
        floor ≤ ‖H‖ ∧ (D / H).re < max (32 * 192) (∑ i : Fin 32, (gaps i : ℝ))) ∧
    ∀ blocks : List (List Bool), (∀ (i : Nat) (hi : i < blocks.length), blocks[i].length = gaps i) →
      let sum := (blocks.flatten.mapIdx fun k bit => h k * if bit then 1 else -1).sum
      |((output (pdmLife blocks)).toInt : ℝ) - max (-32768) (min 32767 (32768 * sum))| ≤ error

/-- The output for the newest bit alone. It serves to show that there is a filter with the passband and the
delay of R3, and is no value of the model's. -/
def newestBit : List PdmEvent → Sample
  | [] => 0
  | .bit level :: _ => if level then 32767 else -32768
  | .instant :: life => newestBit life

theorem newestBit_pdmLife (blocks : List (List Bool)) :
    newestBit (pdmLife blocks) = newestBit (blocks.flatten.map .bit) := by
  induction blocks with
  | nil => rfl
  | cons bits rest ih =>
    cases bits with
    | nil => simpa [pdmLife, newestBit] using ih
    | cons b bits => simp [pdmLife, newestBit]

/-- R3 can be met. -/
theorem newestBit_passes : PassesTheVoiceBand newestBit := by
  refine ⟨1, 0, le_refl 0, by norm_num, fun gaps _ => ⟨fun k => if k = 0 then 1 else 0, ?_, ?_⟩⟩
  · intro hertz _ _ tone
    have one : (fun k : Nat => ((if k = 0 then 1 else 0 : ℝ) : ℂ) * tone k) =
        fun k => if k = 0 then 1 else 0 := by
      funext k
      by_cases hk : k = 0 <;> simp [hk, tone]
    have zero : (fun k : Nat => (k : ℂ) * ((if k = 0 then 1 else 0 : ℝ) : ℂ) * tone k) = fun _ => 0 := by
      funext k
      by_cases hk : k = 0 <;> simp [hk]
    refine ⟨1, 0, ?_, ?_, by simp, by simp⟩
    · rw [one]
      exact hasSum_ite_eq 0 1
    · rw [zero]
      exact hasSum_zero
  · have zeros : ∀ bits : List Bool, (bits.mapIdx fun _ _ => (0 : ℝ)).sum = 0 := by
      intro bits
      induction bits with
      | nil => rfl
      | cons b bits ih => simpa using ih
    intro blocks _
    rw [newestBit_pdmLife]
    rcases blocks.flatten with _ | ⟨b, bits⟩
    · simp [newestBit]
    · cases b
      · simp [newestBit, List.mapIdx_cons, zeros]
      · simp [newestBit, List.mapIdx_cons, zeros]
        norm_num

/-- A decimation filter as far as R3 specifies it: a sample as a function of the PDM_DATA bits sampled since
reset release and of the positions of the output instants, newest event first, with the passband and the
delay bound. The range is that of a sample. -/
structure DecimationFilter where
  output : List PdmEvent → Sample := newestBit
  passes : PassesTheVoiceBand output := by exact newestBit_passes
  deriving Inhabited

/-- The decimation filter of this device. The spec does not give its inner structure. FREE VALUE, log
entry 1. -/
opaque Config.decimationFilter : DecimationFilter

/-- The sample at an output instant (R3). -/
def Config.decimation : List PdmEvent → Sample := Config.decimationFilter.output

/-- The order in which the record groups of different blocks raised at one cycle start reach the
status port (R165: either order), for the `n`-th cycle start. FREE VALUE, log entry 2. -/
opaque Config.recordOrder : Nat → Fin 6

/-- Whether the CYCLE_JUMP record comes before the record of the sync-state change that the same
beat makes, for the `n`-th cycle start. FREE VALUE, log entry 3. -/
opaque Config.jumpFirst : Nat → Bool

/-- Whether the detector's read request is served before one of the transmitter that is raised at the
same opportunity (R10: either), after the `n`-th cycle start. FREE VALUE, log entry 20. -/
opaque Config.detectorFirst : Nat → Bool

/-- The bit times that the formation of the `n`-th contribution set takes for the sample at a position, from
the sample before it on, or from the completion of the set for sample 0 (R140: sample by sample, sample 0
first, all within 64 bit times). FREE VALUE, log entry 22. -/
opaque Config.formingTime (n position : Nat) : Nat

end Sys2Proof
end

