-- ==== Sys2Proof/Machine/Crc.lean ====
section
/-! DEFINITION. Bit lists in sending order and the two CRCs of R170. -/

namespace Sys2Proof.Machine

/-- The `w` low bits of `n`, most significant first (R169: fields are unsigned, MSB first). -/
def natBits (w n : Nat) : List Bool :=
  (List.range w).map fun i => n.testBit (w - 1 - i)

/-- The number whose bits, most significant first, are given. -/
def bitsNat (bits : List Bool) : Nat :=
  bits.foldl (fun a b => 2 * a + b.toNat) 0

/-- The `w`-bit field that begins at bit `at'`. -/
def field (bits : List Bool) (at' w : Nat) : Nat :=
  bitsNat ((bits.drop at').take w)

/-- One input bit of the CRC-16 (R170). -/
def crc16Step (reg : BitVec 16) (b : Bool) : BitVec 16 :=
  if reg.msb != b then (reg <<< 1) ^^^ 0x1021#16 else reg <<< 1

/-- The CRC-16 of R170, started at FFFFh. -/
def crc16 (bits : List Bool) : BitVec 16 :=
  bits.foldl crc16Step 0xFFFF#16

/-- One input bit of the CRC-8 (R170). -/
def crc8Step (reg : BitVec 8) (b : Bool) : BitVec 8 :=
  if reg.msb != b then (reg <<< 1) ^^^ 0x07#8 else reg <<< 1

/-- The CRC-8 of R170, started at 00h. -/
def crc8 (bits : List Bool) : BitVec 8 :=
  bits.foldl crc8Step 0x00#8

end Sys2Proof.Machine
end

