-- ==== Sys2Proof/Machine/State.lean ====
section
/-! DEFINITION. The state of one GN16, block by block as 00_scope section 3 lists them, the fault and
refusal reasons, and the state under hardware reset. -/

namespace Sys2Proof.Machine

/-! ## Names of values -/

/-- Sync states (R47). -/
inductive SyncState where
  | listen | aligning | observing | entering | locked | incompatible | conflict
  deriving DecidableEq, Repr

/-- SYNC reasons (Table 4-3). -/
inductive SyncReason where
  | beatHeard | founded | confirmed | noBeat | fingerprintOk | mismatch | matched | entered
  | slotConflict | waitEnded | lost | diverged | cycleJump
  deriving DecidableEq, Repr

/-- Node roles (strap ROLE, R149). -/
inductive Role where
  | auto | keyed | chair | listen
  deriving DecidableEq, Repr

/-- Lane-granting policies (strap POLICY, R149). -/
inductive Policy where
  | firstOn | loudest
  deriving DecidableEq, Repr

/-- Detector states (R26, R27). -/
inductive DetState where
  | silent | onset | speech | hangover
  deriving DecidableEq, Repr

/-- Requests (R87). -/
inductive Request where
  | none | claim | priority
  deriving DecidableEq, Repr

/-- Markers of a lane frame (R126). -/
inductive Marker where
  | continue | first | last | silent
  deriving DecidableEq, Repr

/-- Presence of an address (R76). -/
inductive Presence where
  | absent | arriving | present | missing | foreign
  deriving DecidableEq, Repr

/-- GATE reasons (Table 6-9). -/
inductive GateReason where
  | grant | release | preempted | idleTaken | revoked | conflict | mic | lost
  deriving DecidableEq, Repr

/-- Reasons held with the release-pending flag (Table 6-1). -/
inductive ReleaseReason where
  | release | revoked | mic
  deriving DecidableEq, Repr

/-- Microphone states (R12). -/
inductive MicState where
  | ok | fault
  deriving DecidableEq, Repr

/-- Validity of a frame slot (1.4): open while it fills, else VALID, or INVALID with its reason. -/
inductive Validity where
  | filling | valid | stuck | cut
  deriving DecidableEq, Repr

/-- Readback outcomes (R43). -/
inductive Readback where
  | clean | collision
  deriving DecidableEq, Repr

/-- Ramps of a contribution (R133). -/
inductive Ramp where
  | unity | rising | falling | zero
  deriving DecidableEq, Repr

/-- Receive states of a lane (8.3). -/
inductive RecvState where
  | good | concealed | muted
  deriving DecidableEq, Repr

/-- Next-buffer status (Table 9-1). -/
inductive NextStatus where
  | empty | forming | formed
  deriving DecidableEq, Repr

/-- Sources of a CLIP record (R6, R143). -/
inductive ClipSource where
  | capture | mix
  deriving DecidableEq, Repr

/-- Owner kinds (R84). -/
inductive OwnerKind where
  | auto | priority
  deriving DecidableEq, Repr

/-- The three beats a node sends (R53, R60, R61). -/
inductive BeatKind where
  | founding | holder | taker
  deriving DecidableEq, Repr

/-- The three kinds of line frame (R35). -/
inductive FrameKind where
  | beat | report | lane
  deriving DecidableEq, Repr

/-- The two readers of the frame bank (Table 1-2). -/
inductive Reader where
  | detector | transmitter
  deriving DecidableEq, Repr

/-! ## Records that several blocks share -/

/-- The strap values (Table 10-2). `lanes` is M − 1. -/
structure Straps where
  addr   : Addr
  role   : Role
  lanes  : Fin 4
  policy : Policy
  lastOn : Bool
  sens   : Fin 4
  hang   : Fin 4
  gain   : Fin 8
  deriving DecidableEq, Repr

/-- The named fields of a report (Table 5-2, Table 12-2). -/
structure Report where
  src         : Addr
  role        : Role
  holder      : Bool
  candidate   : Bool
  detector    : DetState
  score       : BitVec 8
  request     : Request
  age         : BitVec 8
  held        : Option Lane
  closing     : Bool
  idle        : Bool
  muted       : Bool
  muteAll     : Bool
  fingerprint : BitVec 8
  digest      : BitVec 16
  deriving DecidableEq, Repr

/-- The named fields of a lane frame (R127, Table 12-3). -/
structure LaneFrame where
  src      : Addr
  lane     : Lane
  marker   : Marker
  sequence : BitVec 8
  samples  : Frame
  deriving DecidableEq, Repr

/-- One lane table entry (Table 6-2). A FREE entry holds nothing; its score reads 0 and its idle flag
clear. A GRANTED entry has no hold age. -/
inductive LaneEntry where
  | free
  | granted (owner : Addr) (kind : OwnerKind) (score : Nat) (idle : Bool)
  | held (owner : Addr) (kind : OwnerKind) (holdAge : Nat) (score : Nat) (idle : Bool)
  deriving DecidableEq, Repr

/-- A lane table, or its slot copy (R84, R85). -/
abbrev LaneTable := Vector LaneEntry 4

/-- One peer-table entry (R76). -/
structure PeerEntry where
  presence : Presence
  good     : Nat
  miss     : Nat
  deriving DecidableEq, Repr

/-- The peer table (5.4). -/
abbrev PeerTable := Vector PeerEntry 16

/-- The reports of a census, one place per address (R73). -/
abbrev CensusEntries := Vector (Option Report) 16

/-- A lane's contribution to the mix (R136). -/
structure Contribution where
  samples : Frame
  ramp    : Ramp
  isOpen  : Bool
  own     : Bool
  deriving DecidableEq, Repr

/-- One contribution per lane (R136). -/
abbrev ContributionSet := Vector Contribution 4

/-- The payload of a status record (Table 11-2). -/
inductive RecordBody where
  | started (straps : Straps) (fingerprint : BitVec 8)
  | sync (state : SyncState) (reason : SyncReason) (holder : Option Addr)
  | peer (addr : Addr) (presence : Presence)
  | gate (lane : Lane) (opened : Bool) (reason : GateReason)
  | request (request : Request) (waitAge : Nat)
  | repair (lane : Lane) (old : Option Addr) (new : Addr)
  | divergence (count : Nat) (own : BitVec 16) (majority : BitVec 16)
  | mic (state : MicState)
  | clip (source : ClipSource)
  | summary (owners : Vector (Option Addr) 4) (present : Vector Bool 16) (holder : Option Addr)
      (unlisted : Bool)
  deriving DecidableEq, Repr

/-- A status record as it waits in the queue: the cycle number of the event, and the payload. -/
structure Record where
  cycle : BitVec 16
  body  : RecordBody
  deriving DecidableEq, Repr

/-! ## Capture unit (01) -/

/-- One physical slot of the frame bank (1.4). -/
structure Slot where
  samples  : Frame
  validity : Validity
  clip     : Bool
  deriving DecidableEq, Repr

/-- Capture unit. The slot of age `k` is `fill - k` (mod 4), since ages move on by one slot at each
cycle start (R7). `dcOut` is in units of 1/256. -/
structure Capture where
  slots      : Vector Slot 4
  fill       : Fin 4
  transition : Bool
  lastPdm    : Bool
  history    : List PdmEvent
  dcIn       : Sample
  dcOut      : Int
  firstFrame : Bool
  mic        : MicState
  stuckCount : Nat
  goodCount  : Nat
  deriving DecidableEq, Repr

/-! ## Bank arbiter (1.6) -/

/-- A read request that waits for its grant (R10), bound to a physical slot (R11). It is raised `due` bit
times from now. A `due` below 0 tells how long it has waited. -/
structure BankRead where
  reader   : Reader
  slot     : Fin 4
  position : Fin 64
  due      : Int
  deriving DecidableEq, Repr

/-- The bank arbiter: whether the capture writer's request waits, and the read requests in the order in
which they are served. -/
structure Arbiter where
  write : Bool
  reads : List BankRead
  deriving DecidableEq, Repr

/-! ## Speech detector (02) -/

/-- A frame completion as offered to the detector (R7, R16). -/
structure Completion where
  validity : Validity
  clip     : Bool
  mic      : MicState
  deriving DecidableEq, Repr

/-- A processing in progress: the frame read at its start and what was offered with it (R11, R16). -/
structure Processing where
  samples  : Frame
  validity : Validity
  mic      : MicState
  deriving DecidableEq, Repr

/-- Speech detector (Table 2-1). `hist1` is this frame, `hist2` the frame before, `hist3` the frame
before that. -/
structure Detector where
  state      : DetState
  score      : Nat
  outState   : DetState
  outScore   : Nat
  floor      : Nat
  rise       : Nat
  hist1      : Bool
  hist2      : Bool
  hist3      : Bool
  hangover   : Nat
  processing : Option Processing
  pending    : Option Completion
  deriving DecidableEq, Repr

/-! ## Line interface (03) -/

/-- A frame being driven: its bits in sending order and the bit times since its start instant. The line is
released from the bit time after the last of `bits`; a transmission that is stopped keeps the bits up to the
running one (R45, R46, R86). -/
structure LineTx where
  kind : FrameKind
  bits : List Bool
  sent : Nat
  deriving DecidableEq, Repr

/-- Line interface. `stopped` holds the bits sent to their end of own lane frames that a realigning cycle start
stopped, until their outcome is delivered (R45, log entry 24). `candidate` is the beat candidate being read, as the bit times since
its start edge, `beatQuiet` the readings since the decoder's last reception ended, up to four (R36, R46).
`slotFree` is the position of the cycle timer at which the slot receiver's last reception ended (R36, R37). A
span is listed while it is open or still to open, and its class is not yet delivered. -/
structure Line where
  tx          : Option LineTx
  stopped     : List (List Bool)
  candidate   : Option Nat
  beatQuiet   : Nat
  slotFree    : Nat
  reportSpans : Vector Bool 16
  laneSpans   : Vector Bool 4
  deriving DecidableEq, Repr

/-! ## Beat unit (04) -/

/-- The beat request in progress. -/
inductive BeatRequest where
  | idle
  /-- The request waits for a beat candidate to be decided (R53, R60, R61). -/
  | waiting (kind : BeatKind)
  /-- The beat with this cycle number is being sent, `age` bit times after its start instant. -/
  | sending (kind : BeatKind) (cycle : BitVec 16) (age : Nat)
  deriving DecidableEq, Repr

/-- Beat unit (Table 4-1), with the open beat wait (R50), the request in progress and the takeover
instant that a taker waits for (R61). -/
structure Beat where
  sync       : SyncState
  timer      : Nat
  cycle      : BitVec 16
  holder     : Option Addr
  rank       : Option (Fin 15)
  candidate  : Bool
  holderCond : Bool
  barred     : Nat
  failures   : Nat
  coldStart  : Option Nat
  obsCount   : Nat
  entCount   : Nat
  firstBeat  : Bool
  waitOpen   : Bool
  request    : BeatRequest
  takerAt    : Option Nat
  deriving DecidableEq, Repr

/-! ## Census unit (05) -/

/-- Census unit (Table 5-1). `readback` is `none` for none sent. -/
structure Census where
  peers         : PeerTable
  entries       : CensusEntries
  readback      : Option Readback
  ownCollisions : Nat
  conflictWait  : Nat
  reportTx      : Option Report
  deriving DecidableEq, Repr

/-! ## Lane manager (06, 07) -/

/-- Lane manager (Table 6-1). `closingCycle` is the release-pending flag as it stood at the cycle start
(R103), `cutInCycle` tells of an abrupt own cut in the running cycle (R110). -/
structure LaneManager where
  table          : LaneTable
  slotCopy       : LaneTable
  request        : Request
  waitAge        : Nat
  releasePending : Option ReleaseReason
  closingCycle   : Bool
  idleHold       : Bool
  digest         : BitVec 16
  divergence     : Nat
  laneCollisions : Nat
  cutInCycle     : Bool
  deriving DecidableEq, Repr

/-! ## Lane audio unit (08) -/

/-- What the lane audio unit keeps per lane (Table 8-1). -/
structure LaneRx where
  state        : RecvState
  faded        : Bool
  lastGood     : Frame
  received     : Option LaneFrame
  contribution : Option Contribution
  deriving DecidableEq, Repr

/-- Lane audio unit (Table 8-1). `tx` is the own lane frame in transmission. -/
structure LaneAudio where
  tx       : Option LaneFrame
  lanes    : Vector LaneRx 4
  unlisted : Bool
  deriving DecidableEq, Repr

/-! ## Mix unit (09) -/

/-- 64 samples on each of two channels: the full mix, and the mix-minus. -/
structure Buffer where
  left  : Frame
  right : Frame
  deriving DecidableEq, Repr

/-- The output frame being sent: its position, the samples of its left slot and of its right slot, fixed as
each slot starts (R140), the bit times since it started. -/
structure OutFrame where
  position : Fin 64
  left     : Sample
  right    : Option Sample
  age      : Nat
  deriving DecidableEq, Repr

/-- A mix being formed (R140): its contribution set, which one of the sets taken it is, and the bit times since
the set completed. -/
structure Formation where
  set    : ContributionSet
  number : Nat
  age    : Nat
  deriving DecidableEq, Repr

/-- Mix unit (Table 9-1). `formingNext` and `formingPlaying` hold the mix that is being formed into the next
and into the playing buffer (R139). `formingLeft` holds the sets whose formation was under way in a playing
buffer that a further cycle start has replaced, oldest first: each still ends, with its CLIP record (R143).
`closed` tells that the playing buffer's set completed at the realigning cycle start that began the cycle
(R140). `sets` is the MODEL's own count of the sets taken, an argument of a free value (log entry 22).
`refAge` counts bit times since the frame reference, `oclk` is the crystal period within the OCLK period, 0
to 11. -/
structure Mix where
  playing        : Buffer
  next           : Buffer
  nextStatus     : NextStatus
  formingNext    : Option Formation
  formingPlaying : Option Formation
  formingLeft    : List ContributionSet
  closed         : Bool
  sets           : Nat
  refAge         : Nat
  oclk           : Nat
  frame          : Option OutFrame
  deriving DecidableEq, Repr

/-! ## Key and indicator unit (10) -/

/-- One debounced key (R153). -/
structure Key where
  pressed : Bool
  count   : Nat
  deriving DecidableEq, Repr

/-- Key and indicator unit (Table 10-1). -/
structure KeyUnit where
  straps      : Straps
  fingerprint : BitVec 8
  keyA        : Key
  keyB        : Key
  muteLatch   : Bool
  blinkCount  : Nat
  linkPhase   : Bool
  deriving DecidableEq, Repr

/-! ## Status port (11) -/

/-- The record in transmission: its bytes, fixed at its start, and its first bit period. -/
structure StatusTx where
  record   : Record
  overrun  : Bool
  bytes    : List (BitVec 8)
  startBit : Nat
  deriving DecidableEq, Repr

/-- Status port (Table 11-1). `bitClock` counts crystal periods since reset release; `nextFree` is the
first bit period in which a record may start. -/
structure StatusPort where
  queue        : List Record
  tx           : Option StatusTx
  overrun      : Bool
  summaryCount : Nat
  bitClock     : Nat
  nextFree     : Nat
  deriving DecidableEq, Repr

/-! ## The whole node -/

/-- The state of one node. `inReset` holds while power-on reset or the RESET pin lasts. `cycleStarts`
is the MODEL's own counter, the argument of the free values of record order (log entries 2, 3).
`pending` is the queue of commands that wait, first in first out. -/
structure State where
  inReset     : Bool
  capture     : Capture
  arbiter     : Arbiter
  detector    : Detector
  line        : Line
  beat        : Beat
  census      : Census
  lanes       : LaneManager
  audio       : LaneAudio
  mix         : Mix
  keys        : KeyUnit
  status      : StatusPort
  cycleStarts : Nat
  pending     : List Instr
  deriving DecidableEq, Repr

/-- Reasons a command stops the node with a fault. The spec names none: no command faults. -/
inductive Fault where
  deriving DecidableEq, Repr

/-- Reasons a command is refused. -/
inductive Refusal where
  /-- Raised by an arm of `exec` whose command has no meaning yet. Safe: the machine stops. No arm
  raises it. -/
  | notModelled (mnemonic : String)
  deriving DecidableEq, Repr

/-! ## Values under hardware reset -/

/-- The strap registers before any sampling. The spec gives none: all zero, log entry 4. -/
def Straps.unsampled : Straps :=
  { addr := 0, role := .auto, lanes := 0, policy := .firstOn, lastOn := false, sens := 0, hang := 0,
    gain := 0 }

/-- R14. -/
def Slot.reset : Slot := { samples := silence, validity := .cut, clip := false }

/-- R14. `lastPdm` is log entry 5. -/
def Capture.reset : Capture :=
  { slots := Vector.replicate 4 Slot.reset, fill := 0, transition := false, lastPdm := false,
    history := [], dcIn := 0, dcOut := 0, firstFrame := true, mic := .ok, stuckCount := 0,
    goodCount := 0 }

/-- R14: no read is in progress. -/
def Arbiter.reset : Arbiter := { write := false, reads := [] }

/-- R31. -/
def Detector.reset : Detector :=
  { state := .silent, score := 0, outState := .silent, outScore := 0, floor := 120, rise := 0,
    hist1 := false, hist2 := false, hist3 := false, hangover := 0, processing := none,
    pending := none }

/-- R46. -/
def Line.reset : Line :=
  { tx := none, stopped := [], candidate := none, beatQuiet := 0, slotFree := 0,
    reportSpans := Vector.replicate 16 false, laneSpans := Vector.replicate 4 false }

/-- R65. The cold-start timer is started at reset release. -/
def Beat.reset : Beat :=
  { sync := .listen, timer := 0, cycle := 0, holder := none, rank := none, candidate := false,
    holderCond := false, barred := 0, failures := 0, coldStart := none, obsCount := 0, entCount := 0,
    firstBeat := false, waitOpen := false, request := .idle, takerAt := none }

/-- R82. -/
def PeerEntry.absent : PeerEntry := { presence := .absent, good := 0, miss := 0 }

/-- R82. -/
def Census.reset : Census :=
  { peers := Vector.replicate 16 PeerEntry.absent, entries := Vector.replicate 16 none,
    readback := none, ownCollisions := 0, conflictWait := 0, reportTx := none }

/-- The all-FREE lane table (R108). -/
def LaneTable.allFree : LaneTable := Vector.replicate 4 .free

/-- R108: the digest of the all-FREE table is the CRC-16 of 24 zero bits (R170). -/
def LaneManager.reset : LaneManager :=
  { table := LaneTable.allFree, slotCopy := LaneTable.allFree, request := .none, waitAge := 0,
    releasePending := none, closingCycle := false, idleHold := false,
    digest := crc16 (List.replicate 24 false), divergence := 0, laneCollisions := 0,
    cutInCycle := false }

/-- R137. -/
def LaneRx.reset : LaneRx :=
  { state := .muted, faded := true, lastGood := silence, received := none, contribution := none }

/-- R137. -/
def LaneAudio.reset : LaneAudio :=
  { tx := none, lanes := Vector.replicate 4 LaneRx.reset, unlisted := false }

/-- Zeros on both channels (R147). -/
def Buffer.zeros : Buffer := { left := silence, right := silence }

/-- R147. The phase of OCLK at its start is log entry 6. -/
def Mix.reset : Mix :=
  { playing := Buffer.zeros, next := Buffer.zeros, nextStatus := .empty, formingNext := none,
    formingPlaying := none, formingLeft := [], closed := false, sets := 0, refAge := 0, oclk := 0, frame := none }

/-- R159. -/
def Key.released : Key := { pressed := false, count := 0 }

/-- R159. Straps and fingerprint before sampling are log entry 4. -/
def KeyUnit.reset : KeyUnit :=
  { straps := Straps.unsampled, fingerprint := 0, keyA := Key.released, keyB := Key.released,
    muteLatch := false, blinkCount := 0, linkPhase := false }

/-- R168. The port waits ten bit periods after reset release before its first start. -/
def StatusPort.reset : StatusPort :=
  { queue := [], tx := none, overrun := false, summaryCount := 0, bitClock := 0, nextFree := 10 }

/-- The node while hardware reset holds every block in its reset values (R14, R31, R46, R65, R82, R108,
R137, R147, R159, R168). The command RESET_RELEASE ends the reset. -/
def State.reset : State :=
  { inReset := true, capture := Capture.reset, arbiter := Arbiter.reset, detector := Detector.reset,
    line := Line.reset, beat := Beat.reset, census := Census.reset, lanes := LaneManager.reset,
    audio := LaneAudio.reset, mix := Mix.reset, keys := KeyUnit.reset, status := StatusPort.reset,
    cycleStarts := 0, pending := [] }

end Sys2Proof.Machine
end

