-- ==== Sys2Proof/Machine/Arbiter.lean ====
section
/-! DEFINITION. The bank arbiter (R10): which request each access opportunity goes to. One bit time has four
opportunities, one each crystal period. -/

namespace Sys2Proof.Machine

/-- Access opportunities in a bit time (1.6). -/
def opportunities : Nat := 4

/-- The opportunity at which a read is granted, counted from now, when the opportunities before `t` are
taken: the first one from its raising on (R10). -/
def BankRead.grantedAt (t : Nat) (r : BankRead) : Nat := max t (opportunities * r.due).toNat

/-- The reads that still wait after `limit` opportunities, the first `t` of which are taken. They are served
in the order in which they were raised (R10). -/
def serve (limit t : Nat) : List BankRead → List BankRead
  | [] => []
  | r :: rest => if r.grantedAt t < limit then serve limit (r.grantedAt t + 1) rest else r :: rest

/-- `n` bit times pass at the arbiter. A write that waits takes the first opportunity (R10). -/
def Arbiter.elapse (n : Nat) (a : Arbiter) : Arbiter :=
  { write := a.write && decide (n = 0)
    reads := (serve (opportunities * n) a.write.toNat a.reads).map fun r =>
      { r with due := r.due - n } }

/-- The opportunities from now until the last read of `reader` is granted; 0 when none waits. -/
def serveTime (reader : Reader) (t : Nat) : List BankRead → Nat
  | [] => 0
  | r :: rest =>
    max (if r.reader = reader then r.grantedAt t + 1 else 0)
      (serveTime reader (r.grantedAt t + 1) rest)

/-- The bit times until the detector has read its frame (R10, R16). -/
def Arbiter.detectorWait (a : Arbiter) : Nat :=
  (serveTime .detector a.write.toNat a.reads + 3) / opportunities

/-- A read joins those that wait, in the order of raising. Among reads raised at the same opportunity it goes
first when `first` is set. -/
def insertRead (first : Bool) (r : BankRead) : List BankRead → List BankRead
  | [] => [r]
  | x :: rest =>
    if (if first then r.due ≤ x.due else r.due < x.due) then r :: x :: rest
    else x :: insertRead first r rest

/-- The reads of one reader are raised, in sample order (R10). -/
def insertReads (first : Bool) (new old : List BankRead) : List BankRead :=
  if first then new.foldr (insertRead true) old else new.foldl (fun l r => insertRead false r l) old

/-- The detector requests the 64 samples of a slot at once (R10). -/
def detectorReads (slot : Fin 4) : List BankRead :=
  (List.finRange 64).map fun i => { reader := .detector, slot := slot, position := i, due := 0 }

/-- When the transmitter requests each sample, after the start of its lane slot: sample 0 at once, each later
one as the sample before it starts to be sent, after the 24 bits of the header (R10). -/
def requestTime (i : Fin 64) : Int := if i = 0 then 0 else 24 + 16 * ((i.val : Int) - 1)

/-- The transmitter's requests for the samples of a slot (R10). -/
def transmitterReads (slot : Fin 4) : List BankRead :=
  (List.finRange 64).map fun i =>
    { reader := .transmitter, slot := slot, position := i, due := requestTime i }

/-- The capture writer raises its request (R10). -/
def Arbiter.raiseWrite (a : Arbiter) : Arbiter := { a with write := true }

/-- The detector's read of the slot begins (R11). `first` says whether it goes before a read of the
transmitter that is raised at the same opportunity. -/
def Arbiter.raiseDetector (first : Bool) (slot : Fin 4) (a : Arbiter) : Arbiter :=
  { a with reads := insertReads first (detectorReads slot) a.reads }

/-- The transmitter's read of the slot begins (R11). -/
def Arbiter.raiseTransmitter (first : Bool) (slot : Fin 4) (a : Arbiter) : Arbiter :=
  { a with reads := insertReads first (transmitterReads slot) a.reads }

/-- The transmitter's read ends where it stands (R11, R44, R86). -/
def Arbiter.endTransmitter (a : Arbiter) : Arbiter :=
  { a with reads := a.reads.filter fun r => decide (r.reader ≠ .transmitter) }

end Sys2Proof.Machine
end

