-- ==== Sys2Proof/Machine/Formats.lean ====
section
/-! DEFINITION. Chapter 12: the three line frames, the digest input, the fingerprint and the status
records, each with its encoding and, where a receiver reads it, its decoding. -/

namespace Sys2Proof.Machine

/-! ## Two-bit field encodings (Table 12-4) -/

def Role.code : Role → Nat
  | .auto => 0 | .keyed => 1 | .chair => 2 | .listen => 3

def Role.ofCode : Nat → Role
  | 0 => .auto | 1 => .keyed | 2 => .chair | _ => .listen

def DetState.code : DetState → Nat
  | .silent => 0 | .onset => 1 | .speech => 2 | .hangover => 3

def DetState.ofCode : Nat → DetState
  | 0 => .silent | 1 => .onset | 2 => .speech | _ => .hangover

def Request.code : Request → Nat
  | .none => 0 | .claim => 1 | .priority => 2

/-- The fourth request value names no request (R41). -/
def Request.ofCode : Nat → Option Request
  | 0 => some .none | 1 => some .claim | 2 => some .priority | _ => none

def Marker.code : Marker → Nat
  | .continue => 0 | .first => 1 | .last => 2 | .silent => 3

def Marker.ofCode : Nat → Marker
  | 0 => .continue | 1 => .first | 2 => .last | _ => .silent

/-- Held lane field: 0 to 3, or 7 for none (Table 12-2). -/
def heldCode : Option Lane → Nat
  | some l => l.val
  | none => 7

/-- 4, 5 and 6 are invalid (R41). -/
def heldOfCode : Nat → Option (Option Lane)
  | 0 => some (some 0) | 1 => some (some 1) | 2 => some (some 2) | 3 => some (some 3)
  | 7 => some none | _ => none

/-! ## Beat frame (Table 12-1) -/

def beatPattern : List Bool := [false, false, false, true, true, true, false, true]

/-- The 32 bits of a beat carrying cycle number `c`. -/
def encodeBeat (c : BitVec 16) : List Bool :=
  beatPattern ++ natBits 16 c.toNat ++ natBits 8 (crc8 (natBits 16 c.toNat)).toNat

/-- The cycle number of 32 bits that begin with the beat pattern and pass the CRC-8 (R39, R40, R42). -/
def decodeBeat (bits : List Bool) : Option (BitVec 16) :=
  if bits.length = 32 ∧ bits.take 8 = beatPattern ∧
      (crc8 ((bits.drop 8).take 16)).toNat = field bits 24 8 then
    some (BitVec.ofNat 16 (field bits 8 16))
  else none

/-! ## Report frame (Table 12-2) -/

def reportPattern : List Bool := [false, false, true, false, true, false, true, true]

/-- Bits 8 to 66 of the report frame. -/
def reportBody (r : Report) : List Bool :=
  natBits 4 r.src.val ++ natBits 2 r.role.code ++ [r.holder, r.candidate] ++
  natBits 2 r.detector.code ++ natBits 8 r.score.toNat ++ natBits 2 r.request.code ++
  natBits 8 r.age.toNat ++ natBits 3 (heldCode r.held) ++
  [r.closing, r.idle, r.muted, r.muteAll] ++
  natBits 8 r.fingerprint.toNat ++ natBits 16 r.digest.toNat

/-- The 83 bits of a report. -/
def encodeReport (r : Report) : List Bool :=
  reportPattern ++ reportBody r ++ natBits 16 (crc16 (reportBody r)).toNat

/-- The fields of 83 bits that begin with the report pattern and pass the CRC-16, where the request and
held-lane fields hold values that name something (R40, R41). -/
def decodeReport (bits : List Bool) : Option Report :=
  if bits.length = 83 ∧ bits.take 8 = reportPattern ∧
      (crc16 ((bits.drop 8).take 59)).toNat = field bits 67 16 then
    match Request.ofCode (field bits 26 2), heldOfCode (field bits 36 3) with
    | some request, some held =>
      some
        { src := Fin.ofNat 16 (field bits 8 4)
          role := Role.ofCode (field bits 12 2)
          holder := field bits 14 1 == 1
          candidate := field bits 15 1 == 1
          detector := DetState.ofCode (field bits 16 2)
          score := BitVec.ofNat 8 (field bits 18 8)
          request := request
          age := BitVec.ofNat 8 (field bits 28 8)
          held := held
          closing := field bits 39 1 == 1
          idle := field bits 40 1 == 1
          muted := field bits 41 1 == 1
          muteAll := field bits 42 1 == 1
          fingerprint := BitVec.ofNat 8 (field bits 43 8)
          digest := BitVec.ofNat 16 (field bits 51 16) }
    | _, _ => none
  else none

/-- The field validity tests of R41 in slot `slot`, for a node with `m` lanes; the two tests on values
that name nothing stand in `decodeReport`. -/
def Report.fieldsValid (r : Report) (slot : Addr) (m : Nat) : Bool :=
  decide (r.src = slot) &&
  (match r.held with
   | some l => decide (l.val < m) && decide (r.request = .none)
   | none => !r.closing && !r.idle)

/-! ## Lane frame (Table 12-3) -/

def lanePattern : List Bool := [false, false, true, true, false, true, false, true]

/-- Bits 24 to 1047 of the lane frame. -/
def sampleBits (f : Frame) : List Bool :=
  f.toList.flatMap fun x => natBits 16 x.toNat

/-- Bits 8 to 1047 of the lane frame. -/
def laneBody (f : LaneFrame) : List Bool :=
  natBits 4 f.src.val ++ natBits 2 f.lane.val ++ natBits 2 f.marker.code ++
  natBits 8 f.sequence.toNat ++ sampleBits f.samples

/-- The 1064 bits of a lane frame. -/
def encodeLane (f : LaneFrame) : List Bool :=
  lanePattern ++ laneBody f ++ natBits 16 (crc16 (laneBody f)).toNat

/-- The fields of 1064 bits that begin with the lane pattern and pass the CRC-16 (R40, R42). -/
def decodeLane (bits : List Bool) : Option LaneFrame :=
  if bits.length = 1064 ∧ bits.take 8 = lanePattern ∧
      (crc16 ((bits.drop 8).take 1040)).toNat = field bits 1048 16 then
    some
      { src := Fin.ofNat 16 (field bits 8 4)
        lane := Fin.ofNat 4 (field bits 12 2)
        marker := Marker.ofCode (field bits 14 2)
        sequence := BitVec.ofNat 8 (field bits 16 8)
        samples := Vector.ofFn fun i => BitVec.ofNat 16 (field bits (24 + 16 * i.val) 16) }
  else none

/-! ## Lane table entries and the digest (R84, R99, R170) -/

def LaneEntry.owner : LaneEntry → Option Addr
  | .free => none
  | .granted o _ _ _ => some o
  | .held o _ _ _ _ => some o

def LaneEntry.kind : LaneEntry → Option OwnerKind
  | .free => none
  | .granted _ k _ _ => some k
  | .held _ k _ _ _ => some k

def LaneEntry.score : LaneEntry → Nat
  | .free => 0
  | .granted _ _ s _ => s
  | .held _ _ _ s _ => s

def LaneEntry.idle : LaneEntry → Bool
  | .free => false
  | .granted _ _ _ i => i
  | .held _ _ _ _ i => i

def LaneEntry.isFree : LaneEntry → Bool
  | .free => true
  | _ => false

def LaneEntry.isGranted : LaneEntry → Bool
  | .granted _ _ _ _ => true
  | _ => false

def LaneEntry.isHeld : LaneEntry → Bool
  | .held _ _ _ _ _ => true
  | _ => false

/-- Two bits of state and four of owner address (R170). -/
def LaneEntry.digestBits : LaneEntry → List Bool
  | .free => natBits 2 0 ++ natBits 4 0
  | .granted o _ _ _ => natBits 2 1 ++ natBits 4 o.val
  | .held o _ _ _ _ => natBits 2 2 ++ natBits 4 o.val

/-- The digest of a lane table (R99, R170). -/
def LaneTable.digest (t : LaneTable) : BitVec 16 :=
  crc16 (t.toList.flatMap LaneEntry.digestBits)

/-- The lane that a table lists under an address. -/
def LaneTable.laneOf (t : LaneTable) (a : Addr) : Option Lane :=
  (List.finRange 4).find? fun l => t[l].owner == some a

/-! ## Fingerprint (R151, Table 12-5) -/

/-- Protocol revision 2 in bits 7–4, M − 1 in bits 3–2, POLICY in bit 1, LASTON in bit 0. -/
def Straps.makeFingerprint (s : Straps) : BitVec 8 :=
  2#4 ++ BitVec.ofNat 2 s.lanes.val ++ BitVec.ofBool (decide (s.policy = .loudest)) ++
    BitVec.ofBool s.lastOn

/-! ## Status records (R162, R171) -/

def SyncState.code : SyncState → Nat
  | .listen => 0 | .aligning => 1 | .observing => 2 | .entering => 3 | .locked => 4
  | .incompatible => 5 | .conflict => 6

def SyncReason.code : SyncReason → Nat
  | .beatHeard => 0 | .founded => 1 | .confirmed => 2 | .noBeat => 3 | .fingerprintOk => 4
  | .mismatch => 5 | .matched => 6 | .entered => 7 | .slotConflict => 8 | .waitEnded => 9
  | .lost => 10 | .diverged => 11 | .cycleJump => 12

def Presence.code : Presence → Nat
  | .absent => 0 | .arriving => 1 | .present => 2 | .missing => 3 | .foreign => 4

def GateReason.code : GateReason → Nat
  | .grant => 0 | .release => 1 | .preempted => 2 | .idleTaken => 3 | .revoked => 4
  | .conflict => 5 | .mic => 6 | .lost => 7

/-- An address byte; FFh stands for none or unknown (R171). -/
def addrByte : Option Addr → BitVec 8
  | some a => BitVec.ofNat 8 a.val
  | none => 0xFF#8

/-- The high and the low byte of 16 bits, in sending order (R171). -/
def highLow (w : BitVec 16) : List (BitVec 8) :=
  [w.extractLsb' 8 8, w.extractLsb' 0 8]

/-- The kind code of Table 12-8. -/
def RecordBody.code : RecordBody → BitVec 8
  | .started _ _ => 0x01
  | .sync _ _ _ => 0x02
  | .peer _ _ => 0x03
  | .gate _ _ _ => 0x04
  | .request _ _ => 0x05
  | .repair _ _ _ => 0x06
  | .divergence _ _ _ => 0x07
  | .mic _ => 0x08
  | .clip _ => 0x09
  | .summary _ _ _ _ => 0x0A

/-- One byte of the presence bitmap: the eight addresses from `base` on, lowest in bit 0. -/
def presenceByte (v : Vector Bool 16) (base : Nat) : BitVec 8 :=
  BitVec.ofNat 8 (bitsNat ((List.range 8).map fun i => v.getD (base + 7 - i) false))

/-- The payload bytes of Table 12-8. -/
def RecordBody.payload : RecordBody → List (BitVec 8)
  | .started s f =>
    [BitVec.ofNat 8 (s.addr.val * 16 + s.role.code * 4 + s.lanes.val),
     BitVec.ofNat 8 ((if s.policy = .loudest then 128 else 0) + (if s.lastOn then 64 else 0) +
       s.sens.val * 16 + s.hang.val * 4),
     BitVec.ofNat 8 s.gain.val, f]
  | .sync st r h => [BitVec.ofNat 8 st.code, BitVec.ofNat 8 r.code, addrByte h]
  | .peer a p => [BitVec.ofNat 8 a.val, BitVec.ofNat 8 p.code]
  | .gate l o r => [BitVec.ofNat 8 (l.val + (if o then 128 else 0)), BitVec.ofNat 8 r.code]
  | .request r w => [BitVec.ofNat 8 r.code, BitVec.ofNat 8 w]
  | .repair l o n => [BitVec.ofNat 8 l.val, addrByte o, addrByte (some n)]
  | .divergence c own maj => BitVec.ofNat 8 c :: (highLow own ++ highLow maj)
  | .mic m => [match m with | .ok => 0x00 | .fault => 0x01]
  | .clip c => [match c with | .capture => 0x00 | .mix => 0x01]
  | .summary owners present holder unlisted =>
    (owners.toList.map fun o => match o with | some a => BitVec.ofNat 8 a.val | none => 0x80#8) ++
    [presenceByte present 8, presenceByte present 0,
     BitVec.ofNat 8 ((match holder with | some a => a.val | none => 128) +
       (if unlisted then 64 else 0))]

/-- The bytes of a record with its flags, less the checksum (Table 12-7). -/
def Record.bytesBeforeChecksum (r : Record) (overrun : Bool) : List (BitVec 8) :=
  [0xA6#8, r.body.code, if overrun then 0x01 else 0x00] ++ highLow r.cycle ++ r.body.payload

/-- The two's complement of the sum of the bytes, mod 256 (R162). -/
def checksum (bytes : List (BitVec 8)) : BitVec 8 :=
  -(bytes.foldl (· + ·) 0)

/-- The bytes of a record as sent (R162, R171). -/
def Record.bytes (r : Record) (overrun : Bool) : List (BitVec 8) :=
  r.bytesBeforeChecksum overrun ++ [checksum (r.bytesBeforeChecksum overrun)]

/-- The ten bit periods of one character: start bit, data bits least significant first, stop bit
(R161). -/
def characterBits (b : BitVec 8) : List Bool :=
  false :: ((List.range 8).map fun i => b.getLsbD i) ++ [true]

/-- The levels of a record on the status output, one per bit period (R161). -/
def statusBits (bytes : List (BitVec 8)) : List Bool :=
  bytes.flatMap characterBits

end Sys2Proof.Machine
end

