-- ==== Sys2Proof/Machine/Timing.lean ====
section
/-! DEFINITION. Positions within a cycle, in bit times from the cycle start, and other lengths of
time the spec fixes. -/

namespace Sys2Proof.Machine

/-- The expiry of the cycle timer (R48). -/
def expiry : Nat := 12288

/-- The beat wait opens at expiry − 8 (R50). -/
def waitOpening : Nat := expiry - 8

/-- The taker decision falls at expiry + 8 (R61). -/
def takerDecisionAt : Nat := expiry + 8

/-- The takeover instant of rank `r`, expiry + 16 + 32 × r (R61). -/
def takeoverAt (r : Nat) : Nat := expiry + 16 + 32 * r

/-- The horizon, expiry + 528 (R50). -/
def horizon : Nat := expiry + 528

/-- The census close (00_scope 5.1). -/
def censusCloseAt : Nat := 1600

/-- Nominal start of report slot `a` (Table 3-1). -/
def reportStart (a : Nat) : Nat := 64 + 96 * a

/-- Nominal start of lane slot `l` (Table 3-1). -/
def laneStart (l : Nat) : Nat := 1600 + 1088 * l

/-- Output instant `k` (R2). -/
def instantAt (k : Nat) : Nat := (k + 1) * 192

/-- The cold-start delay of an address (R52). -/
def coldStartDelay (addr : Nat) : Nat := 36864 + 3072 * addr

/-- Lengths of the three line frames in bits (Tables 12-1 to 12-3). -/
def beatBits : Nat := 32
def reportBits : Nat := 83
def laneBits : Nat := 1064

/-- Lengths of a report slot and of a lane slot (Table 3-1). -/
def reportSlotLength : Nat := 96
def laneSlotLength : Nat := 1088

/-- The acceptance window of a slot ends this far after its span opens (R37: s − 8 to s + 8). -/
def windowLength : Nat := 16

/-- Cycles of a bar (R62) and of a conflict wait (R71), cycle starts between summaries (R167), cycles
of a LINK half-period (R156). -/
def barCycles : Nat := 250
def conflictCycles : Nat := 250
def summaryCycles : Nat := 250
def blinkCycles : Nat := 125

/-- The number of the bit period of the status port that contains, or starts at, crystal period `t`
after reset release: three bit periods last 107, 107 and 106 crystal periods (R161). -/
def bitPeriodOf (t : Nat) : Nat :=
  3 * (t / 320) + (if t % 320 < 107 then 0 else if t % 320 < 214 then 1 else 2)

/-- Whether crystal period `t` after reset release is a bit clock boundary (R161). -/
def onBitBoundary (t : Nat) : Bool :=
  t % 320 == 0 || t % 320 == 107 || t % 320 == 214

/-- The crystal period after reset release at which bit period `p` starts (R161). -/
def bitPeriodStart (p : Nat) : Nat :=
  320 * (p / 3) + (if p % 3 = 0 then 0 else if p % 3 = 1 then 107 else 214)

/-- The first bit period that starts at or after crystal period `t`. -/
def nextBitPeriod (t : Nat) : Nat :=
  if onBitBoundary t then bitPeriodOf t else bitPeriodOf t + 1

end Sys2Proof.Machine
end

