-- ==== Sys2Proof/Machine/Operands.lean ====
section
/-! DEFINITION. What the operands of the commands mean: strap pins, key pins, slot receptions, line
readbacks. -/

namespace Sys2Proof.Machine

/-! ## Pins (Table 12-10) -/

/-- The strap values that the pin levels encode (R149, R150, Table 12-10). -/
def sampleStraps (p : StrapPins) : Straps :=
  { addr := p.addr.toFin
    role := Role.ofCode p.role.toNat
    lanes := p.lanes.toFin
    policy := if p.policy then .loudest else .firstOn
    lastOn := p.lastOn
    sens := p.sens.toFin
    hang := p.hang.toFin
    gain := p.gain.toFin }

/-- Whether KEYA is pressed: a low pin is pressed (Table 12-10). -/
def keyAPressed (p : KeyPins) : Bool := !p.keyA

/-- Whether KEYB is pressed. -/
def keyBPressed (p : KeyPins) : Bool := !p.keyB

/-- The number of lanes M (R149). -/
def Straps.laneCount (s : Straps) : Nat := s.lanes.val + 1

/-! ## Start edges (R36) -/

/-- How many consecutive recessive readings come before a start edge (R36). -/
def edgeQuiet : Nat := 4

/-- A dominant reading is a start edge when enough recessive readings came just before it (R36). -/
def isStartEdge (recessive : Nat) : Bool := decide (edgeQuiet ≤ recessive)

/-- The position of the first start edge in a list of readings (R36). The first `skip` readings belong to a
reception that has not ended and count for nothing. `quiet` recessive readings came before the list. -/
def firstEdge : Nat → Nat → List Bool → Option Nat
  | _, _, [] => none
  | skip + 1, quiet, _ :: rest => (firstEdge skip quiet rest).map (· + 1)
  | 0, quiet, true :: rest => (firstEdge 0 (quiet + 1) rest).map (· + 1)
  | 0, quiet, false :: rest =>
    if isStartEdge quiet then some 0 else (firstEdge 0 0 rest).map (· + 1)

/-! ## Slot classes (R37, R38, Table 3-3) -/

/-- The class of a slot. -/
inductive SlotClass (α : Type) where
  | good (fields : α)
  | empty
  | misplaced
  | corrupt
  deriving DecidableEq, Repr

/-- The first start edge in a span of `span` bit times that opens at `opens`, by its position in the span.
The receiver's last reception ended at `free`: no recessive reading before that counts, and none of it is
searched (R36, R37). -/
def slotEdge (rx : SlotRx) (opens free span : Nat) : Option Nat :=
  firstEdge (free - opens) (min rx.before (opens - free)) (rx.readings.take span)

/-- The `frame` bits read from a start edge on. -/
def slotBits (rx : SlotRx) (edge frame : Nat) : List Bool :=
  (rx.readings.drop edge ++ List.replicate frame true).take frame

/-- The class that the first start edge alone decides (R37). -/
def classifySlot {α : Type} (rx : SlotRx) (edge : Option Nat) (frame : Nat) (pattern : List Bool)
    (decode : List Bool → Option α) : SlotClass α :=
  match edge with
  | none => .empty
  | some e =>
    if windowLength < e then .misplaced
    else if (slotBits rx e frame).take 8 ≠ pattern then .corrupt
    else match decode (slotBits rx e frame) with
      | some f => .good f
      | none => .corrupt

/-- How long after its span opened a slot's class is decided (Table 3-3). -/
def slotDecidedAfter (rx : SlotRx) (edge : Option Nat) (span frame : Nat) (pattern : List Bool) : Nat :=
  match edge with
  | none => span
  | some e =>
    if windowLength < e then e
    else if (slotBits rx e frame).take 8 ≠ pattern then e + 8
    else e + frame

/-- The first start edge in a report slot's span. -/
def reportEdge (rx : SlotRx) (slot : Addr) (free : Nat) : Option Nat :=
  slotEdge rx (reportStart slot.val - 8) free reportSlotLength

/-- The first start edge in a lane slot's span. -/
def laneEdge (rx : SlotRx) (lane : Lane) (free : Nat) : Option Nat :=
  slotEdge rx (laneStart lane.val - 8) free laneSlotLength

/-- The class of a report slot at a node with `m` lanes (R37, R40, R41). -/
def reportClass (rx : SlotRx) (slot : Addr) (m free : Nat) : SlotClass Report :=
  match classifySlot rx (reportEdge rx slot free) reportBits reportPattern decodeReport with
  | .good r => if r.fieldsValid slot m then .good r else .corrupt
  | c => c

/-- The class of a lane slot (R37, R40, R42). -/
def laneClass (rx : SlotRx) (lane : Lane) (free : Nat) : SlotClass LaneFrame :=
  classifySlot rx (laneEdge rx lane free) laneBits lanePattern decodeLane

/-- The bit time of the cycle at which a report slot's class is decided (R34, R38). -/
def reportDecidedAt (rx : SlotRx) (slot : Addr) (free : Nat) : Nat :=
  reportStart slot.val - 8 +
    slotDecidedAfter rx (reportEdge rx slot free) reportSlotLength reportBits reportPattern

/-- The bit time of the cycle at which a lane slot's class is decided (R34, R38). -/
def laneDecidedAt (rx : SlotRx) (lane : Lane) (free : Nat) : Nat :=
  laneStart lane.val - 8 +
    slotDecidedAfter rx (laneEdge rx lane free) laneSlotLength laneBits lanePattern

/-- When the receiver's last reception ended, once a slot is decided at `at'`: a slot without a start edge
had none (R36). -/
def freeAfter (edge : Option Nat) (at' free : Nat) : Nat := if edge.isSome then at' else free

/-- The fields of a GOOD slot, if it is one. -/
def SlotClass.fields {α : Type} : SlotClass α → Option α
  | .good f => some f
  | _ => none

/-! ## Beat candidates and readback -/

/-- The bits of a candidate as read, first bit first. -/
def candidateBits (word : BitVec 32) : List Bool := natBits 32 word.toNat

/-- The cycle number of a good beat (R39, R40). -/
def goodBeat (word : BitVec 32) : Option (BitVec 16) := decodeBeat (candidateBits word)

/-- Whether the candidate's first eight bits are the beat pattern (R39). -/
def hasBeatPattern (word : BitVec 32) : Bool := decide ((candidateBits word).take 8 = beatPattern)

/-- The bits of a readback, first bit first. -/
def readBits {w : Nat} (read : BitVec w) : List Bool := natBits w read.toNat

/-- The first bit of a frame at which the line as read back differs from the bit sent (R43). -/
def firstDiff (sent read : List Bool) : Option Nat :=
  (sent.zip read).findIdx? fun p => p.1 != p.2

/-- The readback comparator (R43): collision when some bit read back differs from the bit sent. -/
def compareReadback (sent read : List Bool) : Readback :=
  if (firstDiff sent read).isSome then .collision else .clean

end Sys2Proof.Machine
end

