-- ==== Sys2Proof/Machine/Flags.lean ====
section
/-! DEFINITION. The conditions and output pins that follow the state without memory of their own: the key
meanings of R154, the five indicators, the line driver, the clocks and the serial outputs. -/

namespace Sys2Proof.Machine

/-! ## Sync state (R34, R129, R144, R156) -/

/-- The states in which spans are opened, a census is taken and lanes are mixed. -/
def SyncState.receives : SyncState → Bool
  | .observing | .entering | .locked | .incompatible | .conflict => true
  | .listen | .aligning => false

/-- The states in which LINK blinks (Table 10-5). -/
def SyncState.blinks : SyncState → Bool
  | .aligning | .observing | .entering => true
  | .listen | .locked | .incompatible | .conflict => false

/-- The states in which the own report is sent (R66). -/
def SyncState.reports : SyncState → Bool
  | .entering | .locked => true
  | .listen | .aligning | .observing | .incompatible | .conflict => false

/-- The node's own address. -/
def State.own (s : State) : Addr := s.keys.straps.addr

/-- The node's role. -/
def State.role (s : State) : Role := s.keys.straps.role

/-- The strapped number of lanes M. -/
def State.laneCount (s : State) : Nat := s.keys.straps.laneCount

/-! ## Key meanings (R154) -/

/-- A cough is in progress: role AUTO and KEYA pressed. -/
def KeyUnit.cough (k : KeyUnit) : Bool := decide (k.straps.role = .auto) && k.keyA.pressed

/-- Muted: mute latch set or a cough in progress. -/
def KeyUnit.muted (k : KeyUnit) : Bool := k.muteLatch || k.cough

/-- Talk key held: role KEYED and KEYA pressed. -/
def KeyUnit.talkHeld (k : KeyUnit) : Bool := decide (k.straps.role = .keyed) && k.keyA.pressed

/-- Mute-all: role CHAIR and KEYA pressed. -/
def KeyUnit.muteAll (k : KeyUnit) : Bool := decide (k.straps.role = .chair) && k.keyA.pressed

/-! ## Indicators (10.3): `true` for lit, all dark throughout hardware reset (R159) -/

/-- LINK (R156). -/
def State.linkLit (s : State) : Bool :=
  !s.inReset && (if s.beat.sync.blinks then s.keys.linkPhase else decide (s.beat.sync = .locked))

/-- GATE (R105, R157). -/
def State.gateLit (s : State) : Bool := !s.inReset && (s.lanes.slotCopy.laneOf s.own).isSome

/-- WAIT (R89, R157). -/
def State.waitLit (s : State) : Bool := !s.inReset && decide (s.lanes.request ≠ .none)

/-- MUTE (R154, R157); dark in the LISTEN role. -/
def State.muteLit (s : State) : Bool :=
  !s.inReset && decide (s.role ≠ .listen) && s.keys.muted

/-- FAULT (R158). -/
def State.faultLit (s : State) : Bool :=
  !s.inReset && (decide (s.beat.sync = .incompatible) || decide (s.beat.sync = .conflict) ||
    decide (s.capture.mic = .fault) || decide (2 ≤ s.lanes.divergence))

/-! ## Output pins -/

/-- Whether the driver pulls the line dominant in the running bit time: a 0 is being sent (R33). -/
def State.lineDominant (s : State) : Bool :=
  match s.line.tx with
  | some tx => tx.bits[tx.sent]? == some false
  | none => false

/-- Whether PDM_CLK runs (R1). -/
def State.pdmClkRuns (s : State) : Bool := !s.inReset && decide (s.role ≠ .listen)

/-- OCLK, high in the second half of its twelve crystal periods; low in reset (R145). -/
def State.oclkHigh (s : State) : Bool := !s.inReset && decide (6 ≤ s.mix.oclk)

/-- The OCLK period of the running output frame (R145): one period is three bit times. -/
def OutFrame.period (f : OutFrame) : Nat := f.age / 3

/-- OWS: low in the left slot, high in the right slot and its extension (R145, R146). -/
def State.owsHigh (s : State) : Bool :=
  match s.mix.frame with
  | some f => !s.inReset && decide (32 ≤ f.period)
  | none => false

/-- ODAT: the sample in the first 16 periods of its slot, most significant bit first, then zeros
(R145). -/
def State.odatHigh (s : State) : Bool :=
  match s.mix.frame with
  | some f =>
    !s.inReset &&
      (if f.period < 16 then f.left.getMsbD f.period
       else if 32 ≤ f.period ∧ f.period < 48 then (f.right.getD 0).getMsbD (f.period - 32)
       else false)
  | none => false

/-- The status output: high at rest and in reset, else the bit of the running bit period (R161, R168). -/
def State.statusHigh (s : State) : Bool :=
  match s.status.tx with
  | some tx =>
    if tx.startBit ≤ bitPeriodOf s.status.bitClock then
      (statusBits tx.bytes).getD (bitPeriodOf s.status.bitClock - tx.startBit) true
    else true
  | none => true

end Sys2Proof.Machine
end

