-- ==== Sys2Proof/Machine/Arith.lean ====
section
/-! DEFINITION. Rounding and saturation, as R4, R5 and R141 use them. -/

namespace Sys2Proof.Machine

/-- `n / d` rounded to the nearest integer, halves away from zero (R4, R141). -/
def roundDiv (n : Int) (d : Nat) : Int :=
  if 0 ≤ n then ((2 * n.natAbs + d) / (2 * d) : Nat) else -((2 * n.natAbs + d) / (2 * d) : Nat)

/-- Whether a value lies outside the 16-bit range (R5, R141). -/
def saturates (x : Int) : Bool :=
  decide (32767 < x) || decide (x < -32768)

/-- A value saturated to 16 bits (R5, R141). -/
def saturate (x : Int) : Sample :=
  if 32767 < x then 32767#16 else if x < -32768 then BitVec.ofInt 16 (-32768) else BitVec.ofInt 16 x

/-- Increase by one, to at most 255 (00_scope 5.2, saturating ages). -/
def satSucc (n : Nat) : Nat := min 255 (n + 1)

end Sys2Proof.Machine
end

