-- ==== Sys2Proof/Machine/MixSum.lean ====
section
/-! DEFINITION. The mix computation (9.2), and the sample that a channel slot of the output port carries. -/

namespace Sys2Proof.Machine

/-! ## The mix computation (9.2) -/

/-- The ramp weight at sample `i`, as a numerator over 64 (R133, R141). -/
def Ramp.weight (r : Ramp) (i : Nat) : Nat :=
  match r with
  | .unity => 64
  | .rising => i + 1
  | .falling => 64 - i
  | .zero => 0

/-- The number of open contributions (R141). -/
def ContributionSet.openCount (set : ContributionSet) : Nat :=
  set.toList.countP (·.isOpen)

/-- The mix gain, Q15 (Table 9-2). -/
def mixGain (n : Nat) : Nat :=
  match n with
  | 0 => 0
  | 1 => 32767
  | 2 => 23170
  | 3 => 18919
  | _ => 16384

/-- The exact weighted sum at sample `i` over the lanes that `keep` admits (R141, R142). -/
def weightedSum (set : ContributionSet) (keep : Contribution → Bool) (i : Fin 64) : Int :=
  set.toList.foldl
    (fun acc c => if keep c then acc + c.samples[i].toInt * (c.ramp.weight i.val : Nat) else acc) 0

/-- Scaling and rounding of a weighted sum, before saturation (R141). -/
def scaleSum (n : Nat) (sum : Int) : Int := roundDiv (sum * (mixGain n : Nat)) 2097152

/-- One output value before saturation; zero when no lane is open (R141). -/
def mixValue (set : ContributionSet) (keep : Contribution → Bool) (i : Fin 64) : Int :=
  if set.openCount = 0 then 0 else scaleSum set.openCount (weightedSum set keep i)

/-- The full mix takes every lane (R141). -/
def fullMix (set : ContributionSet) (i : Fin 64) : Int := mixValue set (fun _ => true) i

/-- The mix-minus leaves out the lanes with the own-address indication (R142). -/
def mixMinus (set : ContributionSet) (i : Fin 64) : Int := mixValue set (fun c => !c.own) i

/-- The mix of one contribution set (R141, R142). -/
def formMix (set : ContributionSet) : Buffer :=
  { left := Vector.ofFn fun i => saturate (fullMix set i)
    right := Vector.ofFn fun i => saturate (mixMinus set i) }

/-- Whether some sample of either channel saturates (R143). -/
def mixSaturates (set : ContributionSet) : Bool :=
  (List.finRange 64).any fun i => saturates (fullMix set i) || saturates (mixMinus set i)

/-! ## Samples of a channel slot (R140) -/

/-- Bit times that the formation of a mix takes at most (R140). -/
def formationTime : Nat := 64

/-- `n` bit times pass for a mix being formed. -/
def Formation.elapse (n : Nat) (f : Formation) : Formation := { f with age := f.age + n }

/-- Whether sample `k` of a mix being formed is formed `later` bit times from now: `formationTime` after the
completion of its set, or sooner, when the samples up to it, sample 0 first, have taken their times (R140,
log entry 22). -/
def Formation.formed (later : Nat) (k : Fin 64) (f : Formation) : Bool :=
  decide (formationTime ≤ f.age + later) ||
    decide (((List.range (k.val + 1)).map (Config.formingTime f.number)).sum ≤ f.age + later)

/-- The sample of position `k` that a channel slot sends which starts `later` bit times from now: of the
playing buffer, 0 while it is not yet formed. Frame 0 is 0 when the set completed at the realigning cycle
start (R140). -/
def Mix.slotSample (channel : Buffer → Frame) (later : Nat) (k : Fin 64) (m : Mix) : Sample :=
  if m.closed ∧ k = 0 then 0
  else match m.formingPlaying with
    | some f => if f.formed later k then (channel (formMix f.set))[k] else 0
    | none => (channel m.playing)[k]

end Sys2Proof.Machine
end

