-- ==== Sys2Proof/Machine/Ops.lean ====
section
/-! DEFINITION. Operations that several blocks share: the passing of time, the status queue, driving
the line, changing the sync state, the abrupt own cut. -/

namespace Sys2Proof.Machine

/-! ## Time (R48, R52, R145, R161) -/

/-- `n` bit times pass: the cycle timer counts up, the cold-start timer down. -/
def Beat.elapse (n : Nat) (b : Beat) : Beat :=
  { b with
    timer := b.timer + n
    coldStart := b.coldStart.map (· - n)
    request := match b.request with
      | .sending kind cycle age => .sending kind cycle (age + n)
      | r => r }

/-- `n` bit times pass at the line interface. -/
def Line.elapse (n : Nat) (l : Line) : Line :=
  { l with
    tx := l.tx.map fun t => { t with sent := t.sent + n }
    candidate := l.candidate.map (· + n)
    beatQuiet := min edgeQuiet (l.beatQuiet + n) }

/-- Bit times from the start of an output frame to its right slot: 32 OCLK periods (R145). -/
def rightSlotAt : Nat := 96

/-- The right slot's sample after `n` bit times: taken as the slot starts (R140). -/
def Mix.rightAfter (n : Nat) (f : OutFrame) (m : Mix) : Option Sample :=
  match f.right with
  | some x => some x
  | none =>
    if rightSlotAt ≤ f.age + n then
      some (m.slotSample Buffer.right (rightSlotAt - f.age) f.position)
    else none

/-- `n` bit times pass at the mix unit and its output port. -/
def Mix.elapse (n : Nat) (m : Mix) : Mix :=
  { m with
    formingNext := m.formingNext.map (Formation.elapse n)
    formingPlaying := m.formingPlaying.map (Formation.elapse n)
    refAge := m.refAge + n
    oclk := (m.oclk + 4 * n) % 12
    frame := m.frame.map fun f => { f with age := f.age + n, right := m.rightAfter n f } }

/-- `n` bit times of four crystal periods pass at the status port. -/
def StatusPort.elapse (n : Nat) (p : StatusPort) : StatusPort :=
  { p with bitClock := p.bitClock + 4 * n }

/-- `n` bit times pass. -/
def State.elapse (n : Nat) (s : State) : State :=
  { s with
    arbiter := s.arbiter.elapse n
    beat := s.beat.elapse n
    line := s.line.elapse n
    mix := s.mix.elapse n
    status := s.status.elapse n }

/-- Time passes until the cycle timer stands at `position`; none passes when it is past it. -/
def State.elapseTo (position : Nat) (s : State) : State :=
  s.elapse (position - s.beat.timer)

/-! ## Status queue (11.3) -/

/-- Whether two records have the same coalescing key (Table 11-3). -/
def sameKey : RecordBody → RecordBody → Bool
  | .sync _ _ _, .sync _ _ _ => true
  | .peer a _, .peer b _ => a == b
  | .gate _ _ _, .gate _ _ _ => true
  | .request _ _, .request _ _ => true
  | .repair l _ _, .repair k _ _ => l == k
  | .divergence _ _ _, .divergence _ _ _ => true
  | .mic _, .mic _ => true
  | .clip x, .clip y => x == y
  | .summary _ _ _ _, .summary _ _ _ _ => true
  | _, _ => false

/-- The contents of a queued record once a new record of its key arrived: the new record's, except
that a SUMMARY keeps a set unlisted-audio flag (R164, R167). -/
def mergeBody (queued new : RecordBody) : RecordBody :=
  match queued, new with
  | .summary _ _ _ u, .summary o p h v => .summary o p h (u || v)
  | _, n => n

/-- The queue with `r` merged into the record of its key, if one is queued (R164). -/
def coalesce (r : Record) : List Record → Option (List Record)
  | [] => none
  | q :: rest =>
    if sameKey q.body r.body then
      some ({ cycle := r.cycle, body := mergeBody q.body r.body } :: rest)
    else (coalesce r rest).map (q :: ·)

/-- A block hands the port a record (R164, R166). -/
def StatusPort.push (p : StatusPort) (r : Record) : StatusPort :=
  match coalesce r p.queue with
  | some q => { p with queue := q }
  | none =>
    if p.queue.length < 16 then { p with queue := p.queue ++ [r] }
    else { p with overrun := true }

/-- A group of records is handed over in order (R165). -/
def StatusPort.pushAll (p : StatusPort) (cycle : BitVec 16) (bodies : List RecordBody) : StatusPort :=
  bodies.foldl (fun p b => p.push { cycle := cycle, body := b }) p

/-- Records raised at one event, with the number of the running cycle (R162, R165). -/
def State.raise (bodies : List RecordBody) (s : State) : State :=
  { s with status := s.status.pushAll s.beat.cycle bodies }

/-- The three groups of one cycle start in one of their six orders (R165). -/
def orderGroups (order : Fin 6) (a b c : List RecordBody) : List RecordBody :=
  match order with
  | 0 => a ++ b ++ c
  | 1 => a ++ c ++ b
  | 2 => b ++ a ++ c
  | 3 => b ++ c ++ a
  | 4 => c ++ a ++ b
  | 5 => c ++ b ++ a

/-! ## Driving the line (R35) -/

/-- The line interface starts to drive a frame. -/
def Line.drive (kind : FrameKind) (bits : List Bool) (l : Line) : Line :=
  { l with tx := some { kind := kind, bits := bits, sent := 0 } }

/-- A frame of this kind is through: the driver is released. -/
def Line.release (kind : FrameKind) (l : Line) : Line :=
  { l with tx := l.tx.filter fun t => decide (t.kind ≠ kind) }

/-- The bit times until a frame of this kind that is being driven has sent `n` bits. -/
def Line.untilSent (kind : FrameKind) (n : Nat) (l : Line) : Nat :=
  match l.tx with
  | some t => if t.kind = kind then n - t.sent else 0
  | none => 0

/-- A transmission stops: the running bit is the last one driven, and the line is released from the next
bit time (R45, R46, R86). -/
def LineTx.stop (t : LineTx) : LineTx := { t with bits := t.bits.take (t.sent + 1) }

/-- Whatever is being sent stops. -/
def Line.stop (l : Line) : Line := { l with tx := l.tx.map LineTx.stop }

/-- The own lane frame stops, if that is what is being sent. -/
def Line.stopLane (l : Line) : Line :=
  { l with tx := l.tx.map fun t => if t.kind = .lane then t.stop else t }

/-! ## Sync state (R47, R59, R80, R156) -/

/-- The blink counter and the LINK phase at a change of sync state (R156). -/
def KeyUnit.onSync (old new : SyncState) (k : KeyUnit) : KeyUnit :=
  if new.blinks then
    if old.blinks then k else { k with blinkCount := 0, linkPhase := true }
  else { k with blinkCount := 0 }

/-- The own peer-table entry by sync state (R80). -/
def ownEntry (sync : SyncState) : PeerEntry :=
  if sync = .locked then { presence := .present, good := 2, miss := 0 } else PeerEntry.absent

/-- The sync state becomes `new`. The candidate flag is set while the state is LOCKED and the node is
not barred (R59), and the own peer-table entry follows (R80). The SYNC record is the caller's. -/
def State.setSync (new : SyncState) (s : State) : State :=
  { s with
    beat := { s.beat with
      sync := new
      candidate := decide (new = .locked) && decide (s.beat.barred = 0) }
    census := { s.census with peers := put s.census.peers s.own (ownEntry new) }
    keys := s.keys.onSync s.beat.sync new }

/-! ## Abrupt own cut (R86) -/

/-- A lane table without the lanes of an address. -/
def LaneTable.without (t : LaneTable) (a : Addr) : LaneTable :=
  Vector.ofFn fun l => if t[l].owner == some a then .free else t[l]

/-- The transmission of the own lane frame stops at a cut: no further samples, the line released from the
next bit time, and its outcome will not be counted (R86, R123, R128). -/
def State.dropLaneTx (s : State) : State :=
  { s with
    audio := { s.audio with tx := none }
    arbiter := s.arbiter.endTransmitter
    line := s.line.stopLane }

/-- The own lane is cut abruptly, if the lane table lists one (R86, R123). The records it raises come
with the state. Without one only the slot copy is left without the own address (R107). -/
def State.cutOwnLane (reason : GateReason) (s : State) : State × List RecordBody :=
  match s.lanes.table.laneOf s.own with
  | none =>
    ({ s with lanes := { s.lanes with slotCopy := s.lanes.slotCopy.without s.own } }, [])
  | some l =>
    let table := s.lanes.table.without s.own
    ({ s.dropLaneTx with
        lanes := { s.lanes with
          table := table
          slotCopy := s.lanes.slotCopy.without s.own
          releasePending := none
          idleHold := false
          digest := table.digest
          laneCollisions := 0
          cutInCycle := true } },
      [.gate l false reason])

end Sys2Proof.Machine
end

