-- ==== Sys2Proof/Machine/Capture.lean ====
section
/-! DEFINITION. Capture unit (chapter 1): PDM samples, output instants, the frame bank, frame completion,
microphone state. Commands OUTPUT_INSTANT and PDM_DATA_SAMPLE. -/

namespace Sys2Proof.Machine

/-! ## The sample chain (R2 to R5) -/

/-- The new output of the DC-removal filter, in units of 1/256 (R4): the decimated sample, minus the one
before, plus 125/128 of the previous output, rounded to eight fractional bits. -/
def dcRemove (x prev : Sample) (prevOut : Int) : Int :=
  roundDiv ((x.toInt - prev.toInt) * 32768 + 125 * prevOut) 128

/-- The value passed to the gain stage: the output rounded to the nearest integer (R4). -/
def dcValue (out : Int) : Int := roundDiv out 256

/-- The gain stage (R5), before saturation. -/
def applyGain (gain : Fin 8) (x : Int) : Int := x * (2 ^ gain.val : Nat)

/-- The chain produces the sample of one output instant and writes it into position `k` of the filling
slot (R2 to R5). -/
def Capture.takeSample (gain : Fin 8) (k : Fin 64) (c : Capture) : Capture :=
  let history := PdmEvent.instant :: c.history
  let x := Config.decimation history
  let out := dcRemove x c.dcIn c.dcOut
  let product := applyGain gain (dcValue out)
  let slot := c.slots[c.fill]
  { c with
    history := history
    dcIn := x
    dcOut := out
    slots := put c.slots c.fill
      { slot with
        samples := put slot.samples k (saturate product)
        clip := slot.clip || saturates product } }

/-! ## Reading the bank (R9, R11) -/

/-- The slot of age `a`, 1 to 3. -/
def Capture.ofAge (c : Capture) (a : Fin 4) : Slot := c.slots[c.fill - a]

/-- What a reader receives from a slot: its samples, or 64 zeros when it is INVALID (R9). -/
def Slot.read (s : Slot) : Frame :=
  if s.validity = .valid then s.samples else silence

/-! ## Frame completion (R7 to R9, R12, R13) -/

/-- Whether a cycle start is a jump: displaced by more than 64 bit times (R8). -/
def isJump (displacement : Option Int) : Bool :=
  match displacement with
  | some d => decide (64 < d.natAbs)
  | none => false

/-- The verdict on the completed frame (R8, R9, R13): CUT before STUCK before VALID. A listener's frames
are never VALID. -/
def verdict (role : Role) (jump first transition : Bool) : Validity :=
  if jump || first then .cut
  else if role = .listen then .stuck
  else if transition then .valid
  else .stuck

/-- The microphone state after a completed frame (Table 1-3). -/
def Capture.updateMic (v : Validity) (c : Capture) : Capture :=
  match c.mic, v with
  | .ok, .stuck =>
    if c.stuckCount + 1 = 2 then { c with mic := .fault, stuckCount := 0, goodCount := 0 }
    else { c with stuckCount := c.stuckCount + 1 }
  | .ok, .valid => { c with stuckCount := 0 }
  | .fault, .valid =>
    if c.goodCount + 1 = 4 then { c with mic := .ok, stuckCount := 0, goodCount := 0 }
    else { c with goodCount := c.goodCount + 1 }
  | .fault, .stuck => { c with goodCount := 0 }
  | _, _ => c

/-- The completed slot, its verdict fixed; an INVALID frame's clip flag is cleared (R9). -/
def Slot.complete (v : Validity) (s : Slot) : Slot :=
  { s with validity := v, clip := s.clip && decide (v = .valid) }

/-- Ages move on: the slot of age 3 becomes the new filling slot (R7). -/
def Capture.roll (c : Capture) : Capture :=
  let fill := c.fill + 1
  { c with
    fill := fill
    slots := put c.slots fill { c.slots[fill] with validity := .filling, clip := false }
    transition := false
    firstFrame := false }

/-- Frame completion (R7): sample 63, verdict, microphone state, ages, and the completion offered to the
detector. A listener runs neither chain nor microphone state (R13). -/
def Capture.complete (straps : Straps) (displacement : Option Int) (c : Capture) :
    Capture × Completion :=
  let c1 := if straps.role = .listen then c else c.takeSample straps.gain 63
  let v := verdict straps.role (isJump displacement) c.firstFrame c.transition
  let slot := c1.slots[c1.fill].complete v
  let c2 := { c1 with slots := put c1.slots c1.fill slot }
  let c3 := if straps.role = .listen then c2 else c2.updateMic v
  (c3.roll, { validity := v, clip := slot.clip, mic := c3.mic })

/-- The records of a frame completion: MIC on a change, then CLIP for a clipped VALID frame
(R6, R12, R165). -/
def captureRecords (before : MicState) (done : Completion) : List RecordBody :=
  (if done.mic = before then [] else [.mic done.mic]) ++
  (if done.validity = .valid ∧ done.clip then [.clip .capture] else [])

/-! ## Commands -/

/-- OUTPUT_INSTANT (R2): instant `k` falls (k+1) × 192 bit times after the cycle start. A listener's
chain does not run (R13). -/
def execOutputInstant (k : Fin 63) (s : State) : Host.Outcome State Fault Refusal :=
  .next <|
    if s.inReset then s
    else
      let s := s.elapseTo (instantAt k.val)
      if s.role = .listen then s
      else
        { s with
          capture := s.capture.takeSample s.keys.straps.gain (k.castLE (by decide))
          arbiter := s.arbiter.raiseWrite }

/-- A rising edge of PDM_CLK (R1): the bit goes to decimation and to stuck detection (R8). -/
def Capture.pdmSample (level : Bool) (c : Capture) : Capture :=
  { c with
    history := PdmEvent.bit level :: c.history
    transition := c.transition || (level != c.lastPdm)
    lastPdm := level }

/-- PDM_DATA_SAMPLE (R1): taken while PDM_CLK runs. -/
def execPdmDataSample (level : Bool) (s : State) : Host.Outcome State Fault Refusal :=
  .next <| if s.pdmClkRuns then { s with capture := s.capture.pdmSample level } else s

end Sys2Proof.Machine
end

