-- ==== Sys2Proof/Machine/Detector.lean ====
section
/-! DEFINITION. Speech detector (chapter 2). Command DETECTOR_PUBLICATION. -/

namespace Sys2Proof.Machine

/-! ## Measures (2.2) -/

/-- The exact sum of the squares of the 64 samples (R19). -/
def sumSquares (f : Frame) : Nat :=
  f.toList.foldl (fun acc x => acc + x.toInt.natAbs * x.toInt.natAbs) 0

/-- Whether 255 + 20 log₁₀(mean square / 2³⁰), an exact half rounded upward, is at least `n`, for a
frame whose squares sum to `sum`: 20 log₁₀(sum / 2³⁶) ≥ n − 255.5, as an exact comparison of
integers, (sum / 2³⁶)⁴⁰ ≥ 10^(2n − 511) (R19). -/
def levelAtLeast (sum n : Nat) : Bool :=
  decide (2 ^ 1440 ≤ sum ^ 40 * 10 ^ (511 - 2 * n))

/-- The level for a sum of squares: the number of `n` from 1 to 255 that it reaches (R19). -/
def levelOfSum (sum : Nat) : Nat :=
  (List.range 255).countP fun i => levelAtLeast sum (i + 1)

/-- The level L of a frame in half-decibel units (R19). -/
def level (f : Frame) : Nat := levelOfSum (sumSquares f)

/-- The number of sign changes along a list of samples; a sample of 0 counts as positive (R20). -/
def signChanges : List Sample → Nat
  | x :: y :: rest => (if x.msb != y.msb then 1 else 0) + signChanges (y :: rest)
  | _ => 0

/-- The zero-crossing count Z of a frame (R20). -/
def zeroCrossings (f : Frame) : Nat := signChanges f.toList

/-! ## Presets (Tables 2-4, 2-7) -/

/-- The four thresholds. -/
structure Thresholds where
  tHigh : Nat
  tLow  : Nat
  zHigh : Nat
  zMax  : Nat
  deriving DecidableEq, Repr

/-- Sensitivity presets (Table 2-4). -/
def thresholds (sens : Fin 4) : Thresholds :=
  match sens with
  | 0 => { tHigh := 30, tLow := 20, zHigh := 20, zMax := 48 }
  | 1 => { tHigh := 24, tLow := 16, zHigh := 18, zMax := 48 }
  | 2 => { tHigh := 18, tLow := 12, zHigh := 16, zMax := 50 }
  | 3 => { tHigh := 12, tLow := 8, zHigh := 14, zMax := 52 }

/-- Hangover lengths in frames (Table 2-7). -/
def hangoverLength (hang : Fin 4) : Nat :=
  match hang with
  | 0 => 25
  | 1 => 50
  | 2 => 100
  | 3 => 200

/-! ## One processed frame -/

/-- Whether a frame qualifies (R24). -/
def qualifies (t : Thresholds) (v : Validity) (z h : Nat) : Bool :=
  decide (v = .valid) && decide (z ≤ t.zMax) &&
    (decide (t.tHigh ≤ h) || (decide (t.tLow ≤ h) && decide (t.zHigh ≤ z)))

/-- The noise floor and the rise counter after a VALID frame of level `l`, from the floor and the
detector state before the frame (Table 2-3). -/
def noiseUpdate (l floor rise : Nat) (before : DetState) : Nat × Nat :=
  if l < floor then (max l (floor - 4), 0)
  else if before = .silent then
    if rise + 1 = 8 then (min 255 (floor + 1), 0) else (floor, rise + 1)
  else (floor, 0)

/-- The detector state and the hangover counter after a frame (Tables 2-5, 2-6); `q1`, `q2`, `q3` are
the history as updated by this frame. -/
def nextDetState (state : DetState) (hang length : Nat) (q1 q2 q3 : Bool) : DetState × Nat :=
  match state with
  | .silent => if q1 then (.onset, 0) else (.silent, 0)
  | .onset =>
    if 2 ≤ q1.toNat + q2.toNat + q3.toNat then (.speech, 0)
    else if !q1 && !q2 then (.silent, 0)
    else (.onset, 0)
  | .speech => if q1 then (.speech, 0) else (.hangover, length)
  | .hangover =>
    if q1 then (.speech, 0)
    else if 1 < hang then (.hangover, hang - 1)
    else (.silent, 0)

/-- The score after a frame of headroom `h` that led to `state` (R28). -/
def nextScore (state : DetState) (h score : Nat) : Nat :=
  if state = .silent then 0 else max h (score - 2)

/-- Forced SILENT under MIC_FAULT (R29). -/
def Detector.force (d : Detector) : Detector :=
  { d with state := .silent, score := 0, hist1 := false, hist2 := false, hist3 := false,
           hangover := 0 }

/-- Stages 3 to 5 of a processing (R16): measures, qualification, update. An INVALID frame leaves the
noise floor and the rise counter (R23). -/
def Detector.judge (straps : Straps) (p : Processing) (d : Detector) : Detector :=
  let l := level p.samples
  let z := zeroCrossings p.samples
  let h := if p.validity = .valid then l - d.floor else 0
  let q := qualifies (thresholds straps.sens) p.validity z h
  let moved := nextDetState d.state d.hangover (hangoverLength straps.hang) q d.hist1 d.hist2
  let noise := if p.validity = .valid then noiseUpdate l d.floor d.rise d.state
    else (d.floor, d.rise)
  { d with
    state := moved.1
    hangover := moved.2
    score := nextScore moved.1 h d.score
    hist1 := q && decide (moved.1 ≠ .silent)
    hist2 := d.hist1 && decide (moved.1 ≠ .silent)
    hist3 := d.hist2 && decide (moved.1 ≠ .silent)
    floor := noise.1
    rise := noise.2 }

/-- One processing and its publication (R16, R17). -/
def Detector.process (straps : Straps) (p : Processing) (d : Detector) : Detector :=
  let d := if p.mic = .fault then d.force else d.judge straps p
  { d with outState := d.state, outScore := d.score }

/-! ## Taking completions (R16, R18) -/

/-- The detector starts processing a completion: it binds its read to the slot of age 1 (R11, R18). -/
def Detector.start (bank : Capture) (mic : MicState) (d : Detector) : Detector :=
  let slot := bank.ofAge 1
  let p : Processing := { samples := slot.read, validity := slot.validity, mic := mic }
  { d with processing := some p }

/-- A frame completion is offered, the ages of `bank` already moved on: taken as it arrives, or held as
the pending completion, replacing one that waits (R18). A listener takes none (R30). -/
def Detector.offer (role : Role) (bank : Capture) (done : Completion) (d : Detector) : Detector :=
  if role = .listen then d
  else match d.processing with
    | none => d.start bank done.mic
    | some _ => { d with pending := some done }

/-- After a publication the detector takes the pending completion (R18). -/
def Detector.takePending (bank : Capture) (d : Detector) : Detector :=
  match d.pending with
  | none => { d with processing := none }
  | some done => { d.start bank done.mic with pending := none }

/-! ## The detector's bank read (R10, R11) -/

/-- The detector starts to read the slot of age 1 when it has started a processing. The order with a read of
the transmitter that is raised at the same opportunity is free (log entry 20). -/
def State.bindDetectorRead (s : State) : State :=
  if s.detector.processing.isSome then
    { s with
      arbiter := s.arbiter.raiseDetector (Config.detectorFirst s.cycleStarts) (s.capture.fill - 1) }
  else s

/-! ## Command -/

/-- The publication of processing `p` (R17): the outputs, the idle hold that a publication other than SILENT
clears (R104), and the pending completion, taken now (R18). -/
def State.publish (p : Processing) (s : State) : State :=
  let d := (s.detector.process s.keys.straps p).takePending s.capture
  ({ s with
      detector := d
      lanes := { s.lanes with
        idleHold := s.lanes.idleHold && decide (d.outState = .silent) } } : State).bindDetectorRead

/-- DETECTOR_PUBLICATION (R17): the processing in progress ends, once its frame is read (R16). -/
def execDetectorPublication (s : State) : Host.Outcome State Fault Refusal :=
  .next <|
    if s.inReset then s
    else match s.detector.processing with
      | none => s
      | some p => (s.elapse s.arbiter.detectorWait).publish p

end Sys2Proof.Machine
end

