-- ==== Sys2Proof/Machine/Election.lean ====
section
/-! DEFINITION. The census-close operation on a lane table (chapters 6 and 7): announcements and repair
(stage 1, follow mode), frees, confirmation, claim list, grants, idle takeover, preemption, and the
comparison of digests. Everything here is a function of a table and of the delivered census. -/

namespace Sys2Proof.Machine

/-- What the census unit delivers to the lane manager (R74), with the lane count M. -/
structure Delivery where
  entries : CensusEntries
  peers   : PeerTable
  m       : Nat
  deriving DecidableEq, Repr

/-- An age field of a request or of a held lane; 0 is taken as 1 (R88). -/
def ageOf (field : BitVec 8) : Nat := max 1 field.toNat

/-- The owner kind that follows an owner's role (R84, R113). -/
def kindOfRole : Role → OwnerKind
  | .keyed | .chair => .priority
  | .auto | .listen => .auto

/-! ## Announcements (7.1, 7.2) -/

/-- An announcement (R110). -/
structure Announcement where
  addr  : Addr
  lane  : Lane
  age   : Nat
  role  : Role
  score : Nat
  idle  : Bool
  deriving DecidableEq, Repr

/-- The presences whose reports announce: PRESENT and ARRIVING, in INCOMPATIBLE also FOREIGN
(R110, R117). -/
def announces (sync : SyncState) : Presence → Bool
  | .present | .arriving => true
  | .foreign => decide (sync = .incompatible)
  | .absent | .missing => false

/-- The announcement of one address, if its report is one (R110). `voided` names the address whose
report was assembled before an abrupt own cut of the same cycle. -/
def announcementOf (sync : SyncState) (voided : Option Addr) (d : Delivery) (a : Addr) :
    Option Announcement :=
  match d.entries[a] with
  | none => none
  | some r =>
    match r.held with
    | none => none
    | some l =>
      if r.closing || !announces sync d.peers[a].presence || voided == some a then none
      else some { addr := a, lane := l, age := ageOf r.age, role := r.role, score := r.score.toNat,
                  idle := r.idle }

/-- The announcements of a census, in ascending address (R110). -/
def announcements (sync : SyncState) (voided : Option Addr) (d : Delivery) : List Announcement :=
  (List.finRange 16).filterMap (announcementOf sync voided d)

/-- The better of the best announcement so far and a next one of a higher address (R111). -/
def betterAnnouncement (best : Option Announcement) (a : Announcement) : Option Announcement :=
  match best with
  | none => some a
  | some b => if b.age < a.age then some a else some b

/-- The winner of a lane: highest announced age, then lowest address (R111); none for a lane of index
M or above. -/
def winner (m : Nat) (anns : List Announcement) (l : Lane) : Option Announcement :=
  if l.val < m then (anns.filter fun a => a.lane == l).foldl betterAnnouncement none else none

/-! ## Repair (7.3) -/

/-- The entry that adoption or follow mode writes for an announcement (R113). -/
def heldFrom (a : Announcement) : LaneEntry :=
  .held a.addr (kindOfRole a.role) a.age a.score a.idle

/-- A lane is adopted for its winner: the winner's other lane becomes FREE, the lane HELD (R113). -/
def adopt (t : LaneTable) (l : Lane) (w : Announcement) : LaneTable :=
  put (t.without w.addr) l (heldFrom w)

/-- Whether lane `l` is adopted, and for whom: it has a winner other than the owner that the table
before stage 1 lists (R112). -/
def adoption (win : Lane → Option Announcement) (before : LaneTable) (l : Lane) :
    Option Announcement :=
  match win l with
  | some w => if before[l].owner = some w.addr then none else some w
  | none => none

/-- Stage 1 (R111 to R113): adoptions in ascending order of lane, on `t`, decided on `before`. -/
def repairTable (win : Lane → Option Announcement) (before t : LaneTable) : LaneTable :=
  (List.finRange 4).foldl
    (fun t l => match adoption win before l with
      | some w => adopt t l w
      | none => t) t

/-- The REPAIR record of lane `l`, if it is adopted (R113). -/
def repairRecord (win : Lane → Option Announcement) (before : LaneTable) (l : Lane) :
    List RecordBody :=
  match adoption win before l with
  | some w => [.repair l before[l].owner w.addr]
  | none => []

/-- Whether stage 1 adopts the own lane for another address (R114). -/
def lostToRepair (win : Lane → Option Announcement) (before : LaneTable) (own : Addr) : Bool :=
  match before.laneOf own with
  | some l => (adoption win before l).isSome
  | none => false

/-! ## Follow mode (7.4) -/

/-- A lane after adoption, in follow mode (Table 7-1). -/
def followEntry (d : Delivery) (win : Option Announcement) (e : LaneEntry) : LaneEntry :=
  match e.owner, e.kind with
  | some o, some k =>
    if win.map (·.addr) = some o then
      match win with
      | some w => .held o k w.age w.score w.idle
      | none => .free
    else if d.peers[o].presence = .missing then
      match e with
      | .held _ _ age score idle => .held o k (satSucc age) score idle
      | _ => .held o k 1 e.score e.idle
    else .free
  | _, _ => .free

/-- Stage 1 in follow mode (R116). -/
def followTable (d : Delivery) (win : Lane → Option Announcement) (before : LaneTable) : LaneTable :=
  let t := repairTable win before before
  Vector.ofFn fun l => followEntry d (win l) t[l]

/-! ## Frees and confirmation (6.4) -/

/-- Whether stage 2 frees a lane listed under `o` (R91). -/
def freedInStage2 (d : Delivery) (l : Lane) (o : Addr) : Bool :=
  decide (d.peers[o].presence = .absent) || decide (d.peers[o].presence = .foreign) ||
  (match d.entries[o] with
   | none => false
   | some r => decide (r.held ≠ some l) || r.closing)

/-- Stage 2 (R91). -/
def stage2 (d : Delivery) (t : LaneTable) : LaneTable :=
  Vector.ofFn fun l => match t[l].owner with
    | some o => if freedInStage2 d l o then .free else t[l]
    | none => .free

/-- Stage 3 for one lane (Table 6-7). -/
def confirm (d : Delivery) (e : LaneEntry) : LaneEntry :=
  match e with
  | .free => .free
  | .granted o k score idle =>
    match d.entries[o] with
    | some r => .held o k (ageOf r.age) r.score.toNat r.idle
    | none => .held o k 1 score idle
  | .held o k age score idle =>
    match d.entries[o] with
    | some r => .held o k (ageOf r.age) r.score.toNat r.idle
    | none => .held o k (satSucc age) score idle

/-- Stage 3 (R92). -/
def stage3 (d : Delivery) (t : LaneTable) : LaneTable :=
  Vector.ofFn fun l => confirm d t[l]

/-! ## The claim list (6.5) -/

/-- A claim list entry (R93); `priority` for PRIORITY, else CLAIM. -/
structure Claim where
  addr     : Addr
  priority : Bool
  wait     : Nat
  score    : Nat
  deriving DecidableEq, Repr

/-- Whether the census contains a mute-all (R94). -/
def hasMuteAll (d : Delivery) : Bool :=
  (List.finRange 16).any fun a =>
    match d.entries[a] with
    | some r => decide (d.peers[a].presence = .present) && decide (r.role = .chair) && r.muteAll
    | none => false

/-- The claim of an address, if it is entered (R93, R94). -/
def claimOf (d : Delivery) (t : LaneTable) (a : Addr) : Option Claim :=
  match d.entries[a] with
  | none => none
  | some r =>
    if d.peers[a].presence = .present ∧ r.request ≠ .none ∧ t.laneOf a = none ∧
        (hasMuteAll d = true → r.role = .chair) then
      some { addr := a, priority := decide (r.request = .priority), wait := ageOf r.age,
             score := r.score.toNat }
    else none

/-- Whether `x` stands before `y`: PRIORITY first, then higher wait age, then higher score, then lower
address (R93). -/
def claimBefore (x y : Claim) : Bool :=
  if x.priority ≠ y.priority then x.priority
  else if x.wait ≠ y.wait then decide (y.wait < x.wait)
  else if x.score ≠ y.score then decide (y.score < x.score)
  else decide (x.addr < y.addr)

/-- `c` put into an ordered claim list. -/
def insertClaim (c : Claim) : List Claim → List Claim
  | [] => [c]
  | x :: rest => if claimBefore c x then c :: x :: rest else x :: insertClaim c rest

/-- Stage 4: the claim list of a census (R93). -/
def claimList (d : Delivery) (t : LaneTable) : List Claim :=
  ((List.finRange 16).filterMap (claimOf d t)).foldr insertClaim []

/-! ## Grants, idle takeover, preemption (6.6) -/

/-- The entry of a lane given to a claim (R95). -/
def grantTo (c : Claim) : LaneEntry :=
  .granted c.addr (if c.priority then .priority else .auto) c.score false

/-- The lanes of a list, in order, that `ok` admits, each given to the first remaining claim. -/
def giveLanes (ok : Lane → LaneEntry → Bool) : List Lane → LaneTable → List Claim →
    LaneTable × List Claim
  | [], t, cs => (t, cs)
  | _ :: _, t, [] => (t, [])
  | l :: ls, t, c :: cs =>
    if ok l t[l] then giveLanes ok ls (put t l (grantTo c)) cs else giveLanes ok ls t (c :: cs)

/-- Stage 5: free lanes below M in ascending order (R95). -/
def stage5 (m : Nat) (t : LaneTable) (cs : List Claim) : LaneTable × List Claim :=
  giveLanes (fun l e => decide (l.val < m) && e.isFree) (List.finRange 4) t cs

/-- Stage 6: HELD lanes whose owner is idle, in ascending order (R96). -/
def stage6 (t : LaneTable) (cs : List Claim) : LaneTable × List Claim :=
  giveLanes (fun _ e => e.isHeld && e.idle) (List.finRange 4) t cs

/-- Whether a lane may be the victim of the first remaining claim (R97, R98). -/
def isVictim (policy : Policy) (c : Claim) (e : LaneEntry) : Bool :=
  match e with
  | .held _ .auto age score _ =>
    c.priority || (decide (policy = .loudest) && decide (25 ≤ age) && decide (score + 12 ≤ c.score))
  | _ => false

/-- Whether victim `x` is chosen before victim `y`: lower score, then lower hold age, then higher owner
address (R97). -/
def victimBefore (x y : LaneEntry) : Bool :=
  match x, y with
  | .held ox _ ax sx _, .held oy _ ay sy _ =>
    if sx ≠ sy then decide (sx < sy)
    else if ax ≠ ay then decide (ax < ay)
    else decide (oy < ox)
  | _, _ => false

/-- The victim among the lanes of a table (R97, R98). -/
def chooseVictim (policy : Policy) (c : Claim) (t : LaneTable) : Option Lane :=
  ((List.finRange 4).filter fun l => isVictim policy c t[l]).foldl
    (fun best l => match best with
      | none => some l
      | some b => if victimBefore t[l] t[b] then some l else some b) none

/-- Stage 7: at most one preemption, for the first remaining claim (R97, R98). -/
def stage7 (policy : Policy) (t : LaneTable) (cs : List Claim) : LaneTable :=
  match cs with
  | [] => t
  | c :: _ =>
    match chooseVictim policy c t with
    | some l => put t l (grantTo c)
    | none => t

/-! ## Stages 2 to 7 together -/

/-- The table after each stage that the owner-side decisions look at. -/
structure ElectionResult where
  after2 : LaneTable
  after6 : LaneTable
  after7 : LaneTable
  deriving DecidableEq, Repr

/-- Stages 2 to 7 on the table that stage 1 leaves (Table 6-5). -/
def elect (policy : Policy) (d : Delivery) (t : LaneTable) : ElectionResult :=
  let t2 := stage2 d t
  let t3 := stage3 d t2
  let r5 := stage5 d.m t3 (claimList d t3)
  let r6 := stage6 r5.1 r5.2
  { after2 := t2, after6 := r6.1, after7 := stage7 policy r6.1 r6.2 }

/-! ## Digest comparison (7.6) -/

/-- The reports that are compared (R119): the own report, and every report of another PRESENT address. -/
def comparisonSet (own : Addr) (d : Delivery) : List Report :=
  (List.finRange 16).filterMap fun a =>
    if a = own ∨ d.peers[a].presence = .present then d.entries[a] else none

/-- The own digest of the comparison: the digest field of the own report; the digest as it stands when
the node sent none (R119, log entry 12). -/
def comparedDigest (own : Addr) (d : Delivery) (standing : BitVec 16) : BitVec 16 :=
  match d.entries[own] with
  | some r => r.digest
  | none => standing

/-- The digests of the differing reports, in ascending address (R119). -/
def differing (own : Addr) (d : Delivery) (standing : BitVec 16) : List (BitVec 16) :=
  ((comparisonSet own d).map (·.digest)).filter (· ≠ comparedDigest own d standing)

/-- Whether the census is divergent: more than half of the set differ (R119). -/
def isDivergent (own : Addr) (d : Delivery) (standing : BitVec 16) : Bool :=
  decide ((comparisonSet own d).length < 2 * (differing own d standing).length)

/-- The majority digest (R121): carried by the greatest number, then by the lowest address. -/
def majorityDigest (ds : List (BitVec 16)) : BitVec 16 :=
  ds.foldl (fun best x => if ds.count best < ds.count x then x else best) (ds.headD 0)

end Sys2Proof.Machine
end

