-- ==== Sys2Proof/Machine/Mix.lean ====
section
/-! DEFINITION. Mix unit and output port (chapter 9). Commands MIX_FORMATION_END and OUTPUT_FRAME_START. -/

namespace Sys2Proof.Machine

/-! ## Buffers and cycles (R139) -/

/-- The set of the running cycle is complete: the status becomes FORMING, and the formation begins (R140). -/
def Mix.takeSet (set : ContributionSet) (m : Mix) : Mix :=
  { m with
    nextStatus := .forming
    formingNext := some { set := set, number := m.sets + 1, age := 0 }
    sets := m.sets + 1 }

/-- A cycle start: the next buffer becomes the playing buffer, a set still forming goes on forming into
it, and the next buffer is EMPTY. A set still forming into the buffer that ceases to play goes on to the end
of its formation (R143, log entry 22). The frame reference is this instant (R146). `closed` tells that the
set completed at this very cycle start (R140). -/
def Mix.cycleStart (closed : Bool) (m : Mix) : Mix :=
  { m with
    playing := m.next
    formingPlaying := m.formingNext
    formingLeft := m.formingLeft ++ m.formingPlaying.toList.map (·.set)
    next := Buffer.zeros
    nextStatus := .empty
    formingNext := none
    closed := closed
    refAge := 0 }

/-- Rejoin (R148): both buffers zero, formation abandoned. -/
def Mix.rejoin (m : Mix) : Mix :=
  { m with
    playing := Buffer.zeros
    next := Buffer.zeros
    nextStatus := .empty
    formingNext := none
    formingPlaying := none
    formingLeft := []
    closed := false }

/-- The end of a formation, of the set that completed first (log entry 22): of one whose buffer plays no more,
else into the playing buffer when that one is forming, else into the next buffer, whose status becomes FORMED.
The set formed comes with the unit. -/
def Mix.endFormation (m : Mix) : Mix × Option ContributionSet :=
  match m.formingLeft, m.formingPlaying, m.formingNext with
  | set :: left, _, _ => ({ m with formingLeft := left }, some set)
  | [], some f, _ => ({ m with playing := formMix f.set, formingPlaying := none }, some f.set)
  | [], none, some f =>
    ({ m with next := formMix f.set, nextStatus := .formed, formingNext := none }, some f.set)
  | [], none, none => (m, none)

/-- The record of an ended formation (R143). -/
def mixRecords (formed : Option ContributionSet) : List RecordBody :=
  match formed with
  | some set => if mixSaturates set then [.clip .mix] else []
  | none => []

/-! ## Output frames (9.4) -/

/-- Bit times from OCLK phase `oclk`, counted in crystal periods, to the next falling edge, which is
phase 0; none when it falls now. -/
def toFallingEdge (oclk : Nat) : Nat := ((12 - oclk % 12) % 12) / 4

/-- Frame `k` starts with its left slot. The right slot takes its sample when it starts (R140). -/
def Mix.startFrame (k : Fin 64) (m : Mix) : Mix :=
  let f : OutFrame :=
    { position := k, left := m.slotSample Buffer.left 0 k, right := none, age := 0 }
  { m with frame := some f }

/-! ## Commands -/

/-- MIX_FORMATION_END (R140, R143). -/
def execMixFormationEnd (s : State) : Host.Outcome State Fault Refusal :=
  .next <|
    if s.inReset then s
    else ({ s with mix := s.mix.endFormation.1 } : State).raise (mixRecords s.mix.endFormation.2)

/-- OUTPUT_FRAME_START (R146): frame `k` starts at the first falling edge of OCLK at or after the frame
reference plus k × 192 bit times. -/
def execOutputFrameStart (k : Fin 64) (s : State) : Host.Outcome State Fault Refusal :=
  .next <|
    if s.inReset then s
    else
      let s := s.elapse (192 * k.val - s.mix.refAge)
      let s := s.elapse (toFallingEdge s.mix.oclk)
      { s with mix := s.mix.startFrame k }

end Sys2Proof.Machine
end

