-- ==== Sys2Proof/Machine/LaneAudio.lean ====
section
/-! DEFINITION. Lane audio unit (chapter 8). Commands LANE_SLOT_START and LANE_SLOT_DELIVERED. -/

namespace Sys2Proof.Machine

/-! ## Sending the own lane (8.1) -/

/-- The marker of the own lane frame (Table 8-2): bank slot of age 3 INVALID, own lane GRANTED in the
slot copy, closing cycle, any other case. -/
def laneMarker (age3 : Validity) (copy : LaneEntry) (closing : Bool) : Marker :=
  if age3 ≠ .valid then .silent
  else if copy.isGranted then .first
  else if closing then .last
  else .continue

/-- The sequence of the running cycle `c`: (c − 3) mod 256 (R127). -/
def laneSequence (c : BitVec 16) : BitVec 8 := BitVec.setWidth 8 (c - 3)

/-- The own lane frame of lane `l` as it is sent (R127). -/
def State.ownLaneFrame (l : Lane) (s : State) : LaneFrame :=
  { src := s.own
    lane := l
    marker := laneMarker (s.capture.ofAge 3).validity s.lanes.slotCopy[l] s.lanes.closingCycle
    sequence := laneSequence s.beat.cycle
    samples := (s.capture.ofAge 3).read }

/-- Whether the own lane frame is requested and admitted in lane slot `l` (R35, R125). -/
def State.sendsLane (l : Lane) (s : State) : Bool :=
  decide (l.val < s.laneCount) && decide (s.beat.sync = .locked) &&
    (s.lanes.slotCopy[l].owner == some s.own)

/-- The own lane frame starts: the transmitter binds its read to the slot of age 3 (R11, R127), the line
interface drives the frame. -/
def State.startLane (lane : Lane) (s : State) : State :=
  { s with
    audio := { s.audio with tx := some (s.ownLaneFrame lane) }
    arbiter := s.arbiter.endTransmitter.raiseTransmitter (!Config.detectorFirst s.cycleStarts)
      (s.capture.fill - 3)
    line := s.line.drive .lane (encodeLane (s.ownLaneFrame lane)) }

/-- LANE_SLOT_START (R125 to R127). -/
def execLaneSlotStart (lane : Lane) (s : State) : Host.Outcome State Fault Refusal :=
  .next <|
    if s.inReset then s
    else
      let s := s.elapseTo (laneStart lane.val)
      if s.sendsLane lane then s.startLane lane else s

/-! ## Acceptance (R130, R131) -/

/-- The three tests on a GOOD lane frame, in order (R130). -/
inductive Acceptance where
  | accepted
  | rejectedCorrupt
  | rejectedUnlisted
  deriving DecidableEq, Repr

/-- Lane index, then source, then sequence (R130). -/
def acceptLane (f : LaneFrame) (l : Lane) (copy : LaneEntry) (cycle : BitVec 16) : Acceptance :=
  if f.lane ≠ l then .rejectedCorrupt
  else if copy.owner ≠ some f.src then .rejectedUnlisted
  else if f.sequence ≠ laneSequence cycle then .rejectedCorrupt
  else .accepted

/-! ## Judgement of a lane (8.3) -/

/-- The ramp of an accepted frame that is not SILENT (Table 8-5). -/
def acceptedRamp (m : Marker) (faded : Bool) : Ramp :=
  if faded then .rising
  else match m with
    | .first => .rising
    | .last => .falling
    | .continue => .unity
    | .silent => .zero

/-- The faded flag after a contribution with this ramp (Table 8-6). -/
def fadedAfter (r : Ramp) : Bool :=
  match r with
  | .zero | .falling => true
  | .rising | .unity => false

/-- Receive state, samples, ramp and open indication of a judgement (Table 8-4). -/
structure Judgement where
  state   : RecvState
  samples : Frame
  ramp    : Ramp
  isOpen  : Bool
  deriving DecidableEq, Repr

/-- The judgement of a lane: `copy` is its slot copy entry, `frame` the accepted frame if any
(R132, R133). -/
def judgement (copy : LaneEntry) (frame : Option LaneFrame) (r : LaneRx) : Judgement :=
  if copy.isFree then { state := .muted, samples := silence, ramp := .zero, isOpen := false }
  else match frame with
    | some f =>
      if f.marker = .silent then
        { state := .good, samples := silence, ramp := .zero, isOpen := false }
      else
        { state := .good, samples := f.samples, ramp := acceptedRamp f.marker r.faded, isOpen := true }
    | none =>
      if r.state = .good then
        { state := .concealed, samples := r.lastGood, ramp := .falling, isOpen := true }
      else { state := .muted, samples := silence, ramp := .zero, isOpen := false }

/-- The last good frame after a judgement (R134). -/
def lastGoodAfter (frame : Option LaneFrame) (old : Frame) : Frame :=
  match frame with
  | some f => if f.marker = .silent then silence else f.samples
  | none => old

/-- A lane after its judgement (R132 to R134, R136). -/
def LaneRx.judge (copy : LaneEntry) (own : Addr) (frame : Option LaneFrame) (r : LaneRx) : LaneRx :=
  let j := judgement copy frame r
  let c : Contribution :=
    { samples := j.samples, ramp := j.ramp, isOpen := j.isOpen, own := copy.owner == some own }
  { state := j.state
    faded := fadedAfter j.ramp
    lastGood := lastGoodAfter frame r.lastGood
    received := frame
    contribution := some c }

/-! ## Contribution sets (R136) -/

/-- What a lane without a judgement contributes: ZERO, not open (R136). -/
def Contribution.zero : Contribution :=
  { samples := silence, ramp := .zero, isOpen := false, own := false }

/-- The contributions of the cycle (R136). -/
def LaneAudio.contributions (a : LaneAudio) : ContributionSet :=
  Vector.ofFn fun l => a.lanes[l].contribution.getD Contribution.zero

/-- Whether no lane span is left to deliver. -/
def Line.lanesDelivered (l : Line) : Bool := l.laneSpans.toList.all (!·)

/-- The judgement of lane `l` at the delivery of its span (R129, R132). -/
def State.judgeLane (l : Lane) (frame : Option LaneFrame) (s : State) : State :=
  { s with
    line := { s.line with laneSpans := put s.line.laneSpans l false }
    audio := { s.audio with
      lanes := put s.audio.lanes l (s.audio.lanes[l].judge s.lanes.slotCopy[l] s.own frame) } }

/-- When no lane span is left, the set is complete and goes to the mix unit (R136, R139). -/
def State.handSet (s : State) : State :=
  if s.line.lanesDelivered then { s with mix := s.mix.takeSet s.audio.contributions } else s

/-- The accepted frame of a delivery, and whether it sets the unlisted flag (R130, R131). -/
def acceptance (rx : SlotRx) (free : Nat) (l : Lane) (copy : LaneEntry) (cycle : BitVec 16) :
    Option LaneFrame × Bool :=
  match laneClass rx l free with
  | .good f =>
    match acceptLane f l copy cycle with
    | .accepted => (some f, false)
    | .rejectedCorrupt => (none, false)
    | .rejectedUnlisted => (none, true)
  | _ => (none, false)

/-- A lane slot's class is decided: the frame is tested, and the receiver is free for the next slot from the
end of this reception on (R36, R37, R130). -/
def State.receiveLane (lane : Lane) (rx : SlotRx) (s : State) : State :=
  let free := s.line.slotFree
  let a := acceptance rx free lane s.lanes.slotCopy[lane] s.beat.cycle
  ({ s with
      line := { s.line with
        slotFree := freeAfter (laneEdge rx lane free) (laneDecidedAt rx lane free) free }
      audio := { s.audio with unlisted := s.audio.unlisted || a.2 } } : State).judgeLane lane a.1

/-- LANE_SLOT_DELIVERED (R129 to R136): each span of a cycle is delivered once (R45). -/
def execLaneSlotDelivered (lane : Lane) (rx : SlotRx) (s : State) : Host.Outcome State Fault Refusal :=
  .next <|
    if s.inReset then s
    else if s.line.laneSpans[lane] then
      ((s.elapseTo (laneDecidedAt rx lane s.line.slotFree)).receiveLane lane rx).handSet
    else s

/-! ## Cycle starts (R133) -/

/-- The faded flag is set where the new slot copy lists another owner than the one before (R133). The
received frames and the contributions are kept until here. Table 8-1 keeps an accepted frame while it is
judged, and Table 8-1 and R136 hand a contribution to the mix unit once per cycle; neither says how long they
stay after that (DESIGN CHOICE, log entry 42). -/
def LaneAudio.cycleStart (before after : LaneTable) (a : LaneAudio) : LaneAudio :=
  { a with lanes := Vector.ofFn fun l =>
      { a.lanes[l] with
        faded := a.lanes[l].faded || (before[l].owner != after[l].owner)
        received := none
        contribution := none } }

/-- Every lane span not yet delivered is delivered as missing (R45, R46), and each lane judged; when
there was one, the set completes at this event. -/
def State.closeLanes (s : State) : State :=
  if s.line.lanesDelivered then s
  else
    let judged := (List.finRange 4).foldl
      (fun s l => if s.line.laneSpans[l] then s.judgeLane l none else s) s
    judged.handSet

end Sys2Proof.Machine
end

