-- ==== Sys2Proof/Machine/Lanes.lean ====
section
/-! DEFINITION. Lane manager (chapters 6 and 7): the own request, the census-close operation on the
node's state, owner-side decisions, the digest comparison, lane-slot collisions. Command
LANE_READBACK_OUTCOME. -/

namespace Sys2Proof.Machine

/-! ## The own request (6.2) -/

/-- The own request at an evaluation: the first row of Table 6-3 that applies (R87). -/
def State.requestNow (s : State) : Request :=
  if s.beat.sync ≠ .locked then .none
  else if s.role = .listen then .none
  else if s.keys.muted then .none
  else if s.capture.mic = .fault then .none
  else if (s.lanes.table.laneOf s.own).isSome then .none
  else if s.role = .auto ∧ (s.detector.outState = .speech ∨ s.detector.outState = .hangover) then .claim
  else if s.role = .chair ∧ (s.detector.outState = .speech ∨ s.detector.outState = .hangover) then
    .priority
  else if s.keys.talkHeld then .priority
  else .none

/-- The wait age after an evaluation that gives `new` (R88). -/
def waitAgeAfter (old new : Request) (wait : Nat) : Nat :=
  if new = .none then 0 else if new = old then satSucc wait else 1

/-- The own request is evaluated; a change raises a REQUEST record (R87 to R89). -/
def State.evaluateRequest (s : State) : State × List RecordBody :=
  let new := s.requestNow
  let wait := waitAgeAfter s.lanes.request new s.lanes.waitAge
  ({ s with lanes := { s.lanes with request := new, waitAge := wait } },
   if new = s.lanes.request then [] else [.request new wait])

/-- The age field of the own report (Table 6-4). -/
def State.reportAge (s : State) : Nat :=
  if s.lanes.request ≠ .none then s.lanes.waitAge
  else match s.lanes.table.laneOf s.own with
    | some l => match s.lanes.table[l] with
      | .granted _ _ _ _ => 1
      | .held _ _ age _ _ => satSucc age
      | .free => 0
    | none => 0

/-- The request ends: NONE with wait age 0, and a REQUEST record when it was another (R89). -/
def State.endRequest (s : State) : State × List RecordBody :=
  ({ s with lanes := { s.lanes with request := .none, waitAge := 0 } },
   if s.lanes.request = .none then [] else [.request .none 0])

/-! ## Owner-side decisions (6.8) -/

/-- The GATE reason of a stored release reason (R103). -/
def ReleaseReason.gate : ReleaseReason → GateReason
  | .release => .release
  | .revoked => .revoked
  | .mic => .mic

/-- Whether the own lane `l` is eligible for idle hold, with table `t` after stage 7 (R104). -/
def State.idleEligible (t : LaneTable) (l : Lane) (s : State) : Bool :=
  s.keys.straps.lastOn && (decide (s.role = .auto) || decide (s.role = .chair)) &&
  decide (s.detector.outState = .silent) &&
  (List.finRange 4).all fun k => decide (k = l) || t[k].isFree

/-- The release test: the first row of Table 6-8 that holds (R102). -/
def State.releaseTest (muteAll eligible : Bool) (s : State) : Option ReleaseReason :=
  if muteAll ∧ s.role ≠ .chair then some .revoked
  else if s.capture.mic = .fault then some .mic
  else if s.keys.muted then some .release
  else if s.role = .keyed ∧ s.keys.talkHeld = false then some .release
  else if (s.role = .auto ∨ s.role = .chair) ∧ s.detector.outState = .silent ∧ eligible = false then
    some .release
  else none

/-- The own lane `l` is kept through stage 7: if it is HELD and not closing, it is tested for release, and
else the idle hold is decided (R102, R104). -/
def State.keepLane (t : LaneTable) (muteAll : Bool) (l : Lane) (s : State) : State :=
  if t[l].isHeld ∧ s.lanes.releasePending = none then
    let eligible := s.idleEligible t l
    match s.releaseTest muteAll eligible with
    | some r => { s with lanes := { s.lanes with releasePending := some r, idleHold := false } }
    | none => { s with lanes := { s.lanes with idleHold := s.lanes.idleHold || eligible } }
  else s

/-- The flags of an own lane that is gone, and its collision counter (R101, R103, R123). -/
def State.clearLaneFlags (s : State) : State :=
  { s with lanes := { s.lanes with
      releasePending := none, idleHold := false, laneCollisions := 0 } }

/-- Stage 9 (6.8): `before` is the table before stage 1, `lost` tells that repair took the own lane. -/
def State.ownerSide (before : LaneTable) (lost muteAll : Bool) (r : ElectionResult) (s : State) :
    State × List RecordBody :=
  match before.laneOf s.own with
  | none =>
    match r.after7.laneOf s.own with
    | some l => (s, [.gate l true .grant])
    | none => (s, [])
  | some l =>
    if lost then (s, [])
    else if r.after2.laneOf s.own = none then
      (s.clearLaneFlags, match s.lanes.releasePending with
        | some reason => [.gate l false reason.gate]
        | none => [])
    else if r.after6.laneOf s.own = none then (s.clearLaneFlags, [.gate l false .idleTaken])
    else if r.after7.laneOf s.own = none then (s.clearLaneFlags, [.gate l false .preempted])
    else (s.keepLane r.after7 muteAll l, [])

/-- After the owner-side decisions: while the table lists the own address the request is NONE (R89), and
the lane-slot collision counter is 0 when it lists no own lane (R123). -/
def State.settleOwn (s : State) : State × List RecordBody :=
  if (s.lanes.table.laneOf s.own).isSome then s.endRequest
  else ({ s with lanes := { s.lanes with laneCollisions := 0 } }, [])

/-! ## Digest comparison (7.6) -/

/-- The divergence counter and its record at a census close whose resulting sync state is LOCKED
(R119 to R121). -/
def State.compareDigests (d : Delivery) (standing : BitVec 16) (s : State) :
    State × List RecordBody :=
  if isDivergent s.own d standing then
    ({ s with lanes := { s.lanes with divergence := s.lanes.divergence + 1 } },
     if s.lanes.divergence = 0 then
       [.divergence 1 (comparedDigest s.own d standing) (majorityDigest (differing s.own d standing))]
     else [])
  else ({ s with lanes := { s.lanes with divergence := 0 } }, [])

/-! ## The census-close operation (6.3) -/

/-- The delivery of the census unit (R74). -/
def State.delivery (s : State) : Delivery :=
  { entries := s.census.entries, peers := s.census.peers, m := s.laneCount }

/-- The winners of the lanes at this census close (R110, R111). -/
def State.winners (s : State) : Lane → Option Announcement :=
  winner s.laneCount
    (announcements s.beat.sync (if s.lanes.cutInCycle then some s.own else none) s.delivery)

/-- The lane table is written and the digest recomputed (R99). -/
def State.setTable (t : LaneTable) (s : State) : State :=
  { s with lanes := { s.lanes with table := t, digest := t.digest } }

/-- REPAIR records in ascending lane, the GATE record of an own loss with its lane (R114, R165). -/
def repairRecords (win : Lane → Option Announcement) (before : LaneTable) (ownLane : Option Lane)
    (gate : List RecordBody) : List RecordBody :=
  (List.finRange 4).flatMap fun l =>
    (if ownLane = some l then gate else []) ++ repairRecord win before l

/-- Stages 1 to 9 (R90, ENTERING and LOCKED). -/
def State.election (s : State) : State × List RecordBody :=
  let before := s.lanes.table
  let win := s.winners
  let d := s.delivery
  let lost := lostToRepair win before s.own
  let cut := if lost then s.cutOwnLane .conflict else (s, [])
  let r := elect s.keys.straps.policy d (repairTable win before cut.1.lanes.table)
  let s1 := cut.1.setTable r.after7
  let cmp := if s.beat.sync = .locked then s1.compareDigests d s.lanes.digest
    else ({ s1 with lanes := { s1.lanes with divergence := 0 } }, [])
  let dec := cmp.1.ownerSide before lost (hasMuteAll d) r
  let fin := dec.1.settleOwn
  (fin.1, repairRecords win before (before.laneOf s.own) cut.2 ++ cmp.2 ++ dec.2 ++ fin.2)

/-- Stages 1 and 8 (R90, R116: OBSERVING, INCOMPATIBLE, CONFLICT). -/
def State.follow (s : State) : State × List RecordBody :=
  let before := s.lanes.table
  let s1 := s.setTable (followTable s.delivery s.winners before)
  ({ s1 with lanes := { s1.lanes with divergence := 0 } }, repairRecords s.winners before none [])

/-- Entry into CONFLICT (R106): the own lane is cut and the request ends. -/
def State.conflictEntry (s : State) : State × List RecordBody × List RecordBody :=
  let cut := s.cutOwnLane .conflict
  let req := cut.1.endRequest
  (req.1, cut.2, req.2)

/-- The lane manager at a census close, on the sync state that the beat unit leaves (R90, R106). The order of
the records at the entry into CONFLICT, GATE then REPAIR then REQUEST, joins R106 and R165
(DESIGN CHOICE, log entry 43). -/
def State.lanesAtCensus (conflictEntered : Bool) (s : State) : State × List RecordBody :=
  match s.beat.sync with
  | .entering | .locked => s.election
  | .observing | .incompatible | .conflict =>
    if conflictEntered then
      let c := s.conflictEntry
      let f := c.1.follow
      (f.1, c.2.1 ++ f.2 ++ c.2.2)
    else s.follow
  | .listen | .aligning => (s, [])

/-! ## Lane-slot collisions (7.7) -/

/-- The lane-slot collision counter at an outcome while the table lists the own address, and the release
at 2 (R123, R124). -/
def State.countLaneOutcome (o : Readback) (s : State) : State × List RecordBody :=
  match o with
  | .clean => ({ s with lanes := { s.lanes with laneCollisions := 0 } }, [])
  | .collision =>
    if s.lanes.laneCollisions + 1 < 2 then
      ({ s with lanes := { s.lanes with laneCollisions := s.lanes.laneCollisions + 1 } }, [])
    else s.cutOwnLane .conflict

/-- Whether the outcome of the own lane frame counts: the table lists an own lane (R123). -/
def State.takeLaneOutcome (o : Readback) (s : State) : State :=
  if (s.lanes.table.laneOf s.own).isSome then
    let c := s.countLaneOutcome o
    c.1.raise c.2
  else s

/-- The own lane frame in transmission has ended: the line is released and no sample is wanted any more
(R35, R44, R128). -/
def State.endLane (s : State) : State :=
  { s with
    audio := { s.audio with tx := none }
    arbiter := s.arbiter.endTransmitter
    line := s.line.release .lane }

/-- How many bits of the own lane frame are sent: it yields after the colliding bit (R44). -/
def laneBitsSent (o : Option Nat) : Nat :=
  match o with
  | some bit => bit + 1
  | none => laneBits

/-- LANE_READBACK_OUTCOME (R43, R44, R123). The outcome of a frame that a realigning cycle start stopped
covers the bits it had sent, and comes first (R45). The frame in transmission runs to the bit at which it
collides, else to its last bit. -/
def execLaneReadbackOutcome (read : BitVec 1064) (s : State) : Host.Outcome State Fault Refusal :=
  .next <|
    if s.inReset then s
    else match s.line.stopped, s.audio.tx with
      | bits :: rest, _ =>
        ({ s with line := { s.line with stopped := rest } } : State).takeLaneOutcome
          (compareReadback bits (readBits read))
      | [], some f =>
        let sent := laneBitsSent (firstDiff (encodeLane f) (readBits read))
        ((s.elapse (s.line.untilSent .lane sent)).endLane).takeLaneOutcome
          (compareReadback (encodeLane f) (readBits read))
      | [], none => s

end Sys2Proof.Machine
end

