-- ==== Sys2Proof/Machine/Reports.lean ====
section
/-! DEFINITION. Own report, census record, peer table (chapter 5). Commands OWN_REPORT_SLOT_START,
REPORT_READBACK_OUTCOME and REPORT_SLOT_DELIVERED. -/

namespace Sys2Proof.Machine

/-! ## The own report (5.1) -/

/-- The own report as assembled at the start of the own slot (R67); in ENTERING the holder and the
candidate flag are clear (R57, R68). -/
def State.ownReport (s : State) : Report :=
  let held := s.lanes.table.laneOf s.own
  { src := s.own
    role := s.role
    holder := s.beat.holderCond && decide (s.beat.sync ≠ .entering)
    candidate := s.beat.candidate && decide (s.beat.sync ≠ .entering)
    detector := s.detector.outState
    score := if s.lanes.idleHold then 0 else BitVec.ofNat 8 s.detector.outScore
    request := s.lanes.request
    age := BitVec.ofNat 8 s.reportAge
    held := held
    closing := held.isSome && s.lanes.releasePending.isSome
    idle := held.isSome && s.lanes.idleHold
    muted := s.keys.muted
    muteAll := s.keys.muteAll
    fingerprint := s.keys.fingerprint
    digest := s.lanes.digest }

/-- A report is put into the census record (R69, R73). -/
def Census.enter (a : Addr) (r : Report) (c : Census) : Census :=
  { c with entries := put c.entries a (some r) }

/-- The own report is sent: entered in the census record as assembled (R69), held in transmission (R66),
driven on the line (R35). -/
def State.sendReport (s : State) : State :=
  { s with
    census := { s.census.enter s.own s.ownReport with reportTx := some s.ownReport }
    line := s.line.drive .report (encodeReport s.ownReport) }

/-- OWN_REPORT_SLOT_START (R66, R87): the request is evaluated in every sync state, the report sent in
ENTERING and LOCKED. -/
def execOwnReportSlotStart (s : State) : Host.Outcome State Fault Refusal :=
  .next <|
    if s.inReset then s
    else
      let s := s.elapseTo (reportStart s.own.val)
      let e := s.evaluateRequest
      (if e.1.beat.sync.reports then e.1.sendReport else e.1).raise e.2

/-- REPORT_READBACK_OUTCOME (R43, R44, R69): the own report runs to its last bit, and its outcome is kept
with the census record. -/
def execReportReadbackOutcome (read : BitVec 83) (s : State) : Host.Outcome State Fault Refusal :=
  .next <|
    if s.inReset then s
    else match s.census.reportTx with
      | none => s
      | some r =>
        let s := s.elapse (s.line.untilSent .report reportBits)
        { s with
          census := { s.census with
            reportTx := none
            readback := some (compareReadback (encodeReport r) (readBits read)) }
          line := s.line.release .report }

/-- A report slot's class is decided: a GOOD report of another address is entered, every other class leaves
the entry at none, the own slot enters nothing (R69, R73). The receiver is free for the next slot from the
end of this reception on (R36, R37). -/
def State.receiveReport (slot : Addr) (rx : SlotRx) (s : State) : State :=
  let free := s.line.slotFree
  let s1 := { s with line := { s.line with
    reportSpans := put s.line.reportSpans slot false
    slotFree := freeAfter (reportEdge rx slot free) (reportDecidedAt rx slot free) free } }
  if slot = s.own then s1
  else match reportClass rx slot s.laneCount free with
    | .good r => { s1 with census := s1.census.enter slot r }
    | _ => s1

/-- REPORT_SLOT_DELIVERED (R73): each span is delivered once (R45). -/
def execReportSlotDelivered (slot : Addr) (rx : SlotRx) (s : State) :
    Host.Outcome State Fault Refusal :=
  .next <|
    if s.inReset then s
    else if s.line.reportSpans[slot] then
      (s.elapseTo (reportDecidedAt rx slot s.line.slotFree)).receiveReport slot rx
    else s

/-! ## Presence (5.4) -/

/-- A good report: the own fingerprint (R77, R78). -/
def PeerEntry.onGood (p : PeerEntry) : PeerEntry :=
  let good := min 2 (p.good + 1)
  { presence := if good = 2 then .present else .arriving, good := good, miss := 0 }

/-- A foreign report: another fingerprint (R77, R78). -/
def PeerEntry.onForeign (_p : PeerEntry) : PeerEntry :=
  { presence := .foreign, good := 0, miss := 0 }

/-- A miss (Table 5-5). -/
def PeerEntry.onMiss (p : PeerEntry) : PeerEntry :=
  match p.presence with
  | .absent => PeerEntry.absent
  | .arriving => PeerEntry.absent
  | .present => { presence := .missing, good := 2, miss := 1 }
  | .missing =>
    if p.miss + 1 < 3 then { presence := .missing, good := 2, miss := p.miss + 1 }
    else PeerEntry.absent
  | .foreign =>
    if p.miss + 1 < 3 then { presence := .foreign, good := 0, miss := p.miss + 1 }
    else PeerEntry.absent

/-- The entry of an address after a census close, from its census record entry (R77). -/
def PeerEntry.update (fingerprint : BitVec 8) (r : Option Report) (p : PeerEntry) : PeerEntry :=
  match r with
  | some r => if r.fingerprint = fingerprint then p.onGood else p.onForeign
  | none => p.onMiss

/-- The peer table after a census close, the own entry apart (R77). -/
def updatePeers (own : Addr) (fingerprint : BitVec 8) (entries : CensusEntries) (t : PeerTable) :
    PeerTable :=
  Vector.ofFn fun a => if a = own then t[a] else t[a].update fingerprint entries[a]

/-- PEER records, in ascending address (R79, R165). -/
def peerRecords (own : Addr) (before after : PeerTable) : List RecordBody :=
  (List.finRange 16).filterMap fun a =>
    if a ≠ own ∧ before[a].presence ≠ after[a].presence then some (.peer a after[a].presence)
    else none

end Sys2Proof.Machine
end

