-- ==== Sys2Proof/Machine/Cycle.lean ====
section
/-! DEFINITION. The rejoin (R64) and the cycle start (R48) of the whole node. -/

namespace Sys2Proof.Machine

/-! ## Rejoin -/

/-- The beat unit after a rejoin (Table 4-6), less the sync state; the request in progress and the wait
are dropped. -/
def Beat.rejoin (addr : Addr) (b : Beat) : Beat :=
  { b with
    holder := none
    rank := none
    candidate := false
    holderCond := false
    barred := 0
    failures := 0
    obsCount := 0
    entCount := 0
    firstBeat := false
    coldStart := some (coldStartDelay addr.val)
    waitOpen := false
    request := .idle
    takerAt := none }

/-- The lane audio unit after a rejoin: the values of Table 8-7, the unlisted flag kept (R138). -/
def LaneAudio.rejoin (a : LaneAudio) : LaneAudio :=
  { LaneAudio.reset with unlisted := a.unlisted }

/-- The line interface after a rejoin (R46): what is being sent stops, no span open; the beat decoder hunts
on. An outcome that stands is delivered to a block that the rejoin then resets (log entry 37). -/
def Line.rejoin (l : Line) : Line :=
  { Line.reset with
    tx := l.tx.map LineTx.stop
    candidate := l.candidate
    beatQuiet := l.beatQuiet }

/-- A rejoin (R64): spans closed and judged first (R46, R138), own lane cut with reason LOST (R109), then
the rejoin values of every block. The records SYNC, GATE, REQUEST come with the state (R165). -/
def State.rejoin (reason : SyncReason) (s : State) : State × List RecordBody :=
  let s1 := s.closeLanes
  let cut := s1.cutOwnLane .lost
  let req := cut.1.endRequest
  let s2 := { req.1 with beat := req.1.beat.rejoin req.1.own }
  let s3 := s2.setSync .listen
  ({ s3 with
      arbiter := s3.arbiter.endTransmitter
      line := s3.line.rejoin
      census := Census.reset
      lanes := LaneManager.reset
      audio := s3.audio.rejoin
      mix := s3.mix.rejoin },
   [.sync .listen reason none] ++ cut.2 ++ req.2)

/-! ## Closing the left cycle (R45) -/

/-- The bits of the own lane frame that have been sent to their end, if it is in transmission: what the
outcome of a stopped frame covers (R45, R123, R128). The bit running at the stop is driven to its end but not
compared: its reading falls at three quarters of it (R36), after the stop. The spec does not say whether it
counts (DEDUCED, log entry 24). -/
def State.laneSent (s : State) : List (List Bool) :=
  match s.audio.tx with
  | some f => [(encodeLane f).take (laneBits - s.line.untilSent .lane laneBits)]
  | none => []

/-- A realigning cycle start closes the cycle it leaves: undelivered spans go out as missing, a
transmission stops. An own report's outcome is discarded (R75); an own lane frame's is still to be
delivered, as it stands at the stop (R45, R123, log entry 24). -/
def State.realign (s : State) : State :=
  let s := s.closeLanes
  { s with
    line := { s.line.stop with stopped := s.line.stopped ++ s.laneSent }
    census := { s.census with reportTx := none }
    audio := { s.audio with tx := none } }

/-! ## Blocks at a cycle start -/

/-- What the beat unit fixes with a cycle start (Table 4-4). `age` is the time since the start instant,
`displacement` is present when the cycle start is realigning, `own` tells of an own clean beat, `sync`
is the sync state after the event, `records` are the beat unit's. -/
structure CycleStart where
  age          : Nat
  cycle        : BitVec 16
  displacement : Option Int
  own          : Bool
  sync         : SyncState
  records      : List RecordBody
  keys         : KeyPins
  deriving DecidableEq, Repr

/-- A request that waits for this boundary lapses; a founding request waits on (R50, R53). -/
def BeatRequest.atCycleStart : BeatRequest → BeatRequest
  | .waiting .holder => .idle
  | .waiting .taker => .idle
  | r => r

/-- The beat unit at a cycle start (R48, R60, R62). -/
def Beat.cycleStart (cs : CycleStart) (b : Beat) : Beat :=
  { b with
    timer := cs.age
    cycle := cs.cycle
    holderCond := cs.own
    barred := b.barred - 1
    waitOpen := false
    takerAt := none
    request := b.request.atCycleStart }

/-- One debounced key at a cycle start (Table 10-3). -/
def Key.sample (pressed : Bool) (k : Key) : Key :=
  if pressed = k.pressed then { k with count := 0 }
  else if k.count < 4 then { k with count := k.count + 1 }
  else { pressed := pressed, count := 0 }

/-- Keys at a cycle start: both sampled; an accepted press of KEYB toggles the mute latch, but not in
the LISTEN role (R153, R155). -/
def KeyUnit.sampleKeys (p : KeyPins) (k : KeyUnit) : KeyUnit :=
  let b := k.keyB.sample (keyBPressed p)
  { k with
    keyA := k.keyA.sample (keyAPressed p)
    keyB := b
    muteLatch :=
      if b.pressed ∧ k.keyB.pressed = false ∧ k.straps.role ≠ .listen then !k.muteLatch
      else k.muteLatch }

/-- The blink at a cycle start, with the sync state before and after it (R156). -/
def KeyUnit.blinkTick (before after : SyncState) (k : KeyUnit) : KeyUnit :=
  if before.blinks ∧ after.blinks then
    if k.blinkCount + 1 < blinkCycles then { k with blinkCount := k.blinkCount + 1 }
    else { k with blinkCount := 0, linkPhase := !k.linkPhase }
  else k

/-- The census unit at a cycle start (R72, R73). -/
def Census.cycleStart (sync : SyncState) (c : Census) : Census :=
  { c with
    entries := Vector.replicate 16 none
    readback := none
    conflictWait := if sync = .conflict then c.conflictWait - 1 else c.conflictWait }

/-- The spans of the cycle that begins (R34). A reception in progress ends at a realigning cycle start, `age`
bit times after the start instant of the new cycle (R45); `age` is 0 at any other. -/
def Line.openSpans (sync : SyncState) (m age : Nat) (l : Line) : Line :=
  { l with
    slotFree := age
    reportSpans := Vector.replicate 16 sync.receives
    laneSpans := Vector.ofFn fun i => sync.receives && decide (i.val < m) }

/-- The lane manager at a cycle start: the slot copy is taken (R85), and the release-pending flag as it
stands makes this a closing cycle (R103). -/
def LaneManager.cycleStart (l : LaneManager) : LaneManager :=
  { l with
    slotCopy := l.table
    closingCycle := l.releasePending.isSome
    cutInCycle := false }

/-- Sync state changes at an event, if it changes. -/
def State.moveSync (new : SyncState) (s : State) : State :=
  if new = s.beat.sync then s else s.setSync new

/-- The candidate flag follows the bar (R59, R62). -/
def State.refreshCandidate (s : State) : State :=
  { s with beat := { s.beat with
      candidate := decide (s.beat.sync = .locked) && decide (s.beat.barred = 0) } }

/-- The bank arbiter at a cycle start: a read of the transmitter ends, since its slot is filled again (R11).
But for a listener, the last sample is written, and the detector starts to read the completed frame unless a
processing is in progress (R16, R18). `bank` has its ages moved on. -/
def State.arbiterAtCycleStart (bank : Capture) (s : State) : Arbiter :=
  let a := s.arbiter.endTransmitter
  if s.role = .listen then a
  else if s.detector.processing.isSome then a.raiseWrite
  else a.raiseWrite.raiseDetector (Config.detectorFirst s.cycleStarts) (bank.fill - 1)

/-- The cycle that ends is closed when the cycle start is realigning (R45). -/
def State.leaveCycle (cs : CycleStart) (s : State) : State :=
  if cs.displacement.isSome then s.realign else s

/-- Whether the contribution set of the left cycle completes at this cycle start (R45, R136). -/
def State.setCloses (cs : CycleStart) (s : State) : Bool :=
  cs.displacement.isSome && !s.line.lanesDelivered

/-- Everything a cycle start does in the blocks, less its records, the summary, and the rejoin, if it
`rejoins`. A cycle start that leaves the blinking states is not counted (R156). -/
def State.beginCycle (cs : CycleStart) (rejoins : Bool) (s : State) : State × List RecordBody :=
  let s1 := s.leaveCycle cs
  let done := s1.capture.complete s1.keys.straps cs.displacement
  let s2 := ({ s1 with beat := s1.beat.cycleStart cs } : State).moveSync cs.sync
  let s3 := s2.refreshCandidate
  ({ s3 with
      capture := done.1
      arbiter := s3.arbiterAtCycleStart done.1
      detector := s3.detector.offer s3.role done.1 done.2
      line := s3.line.openSpans cs.sync s3.laneCount (if cs.displacement.isSome then cs.age else 0)
      census := s3.census.cycleStart cs.sync
      lanes := s3.lanes.cycleStart
      audio := s3.audio.cycleStart s3.lanes.slotCopy s3.lanes.table
      mix := s3.mix.cycleStart (s.setCloses cs)
      keys := (s3.keys.blinkTick s.beat.sync (if rejoins then .listen else cs.sync)).sampleKeys cs.keys
      cycleStarts := s3.cycleStarts + 1 },
   captureRecords s1.capture.mic done.2)

/-! ## Summary (11.5) -/

/-- The SUMMARY record's payload as the node stands (R167). -/
def State.summary (s : State) : RecordBody :=
  .summary (Vector.ofFn fun l => s.lanes.table[l].owner)
    (Vector.ofFn fun a => decide (s.census.peers[a].presence = .present)) s.beat.holder
    s.audio.unlisted

/-- The summary counter at a cycle start; at 250 a SUMMARY record takes the unlisted flag with it
(R167). -/
def State.summaryTick (s : State) : State × List RecordBody :=
  if s.status.summaryCount + 1 < summaryCycles then
    ({ s with status := { s.status with summaryCount := s.status.summaryCount + 1 } }, [])
  else
    ({ s with
        status := { s.status with summaryCount := 0 }
        audio := { s.audio with unlisted := false } },
     [s.summary])

/-! ## The whole event -/

/-- A cycle start of any kind (R48). With `rejoins`, the node rejoins on beat loss at this event (R63,
R64), and a SUMMARY takes what the rejoin leaves (R167). The groups of records of the beat unit, of
the capture unit and of the status port reach the port in a free order (R165). -/
def State.cycleStart (cs : CycleStart) (rejoins : Bool) (s : State) : State :=
  let n := s.cycleStarts
  let c := s.beginCycle cs rejoins
  let r := if rejoins then c.1.rejoin .lost else (c.1, cs.records)
  let t := r.1.summaryTick
  t.1.raise (orderGroups (Config.recordOrder n) r.2 c.2 t.2)

end Sys2Proof.Machine
end

