-- ==== Sys2Proof/Machine/BeatUnit.lean ====
section
/-! DEFINITION. Beat unit (chapter 4): the ten commands of founding, holding, takeover, acceptance and
failure, and the two of the beat decoder (R39). -/

namespace Sys2Proof.Machine

/-! ## Sending beats (R35, R53, R60, R61) -/

/-- The expected cycle number of the coming boundary (R48). -/
def State.expectedCycle (s : State) : BitVec 16 := s.beat.cycle + 1

/-- The cycle number a beat of each kind carries (R53, R60, R61). -/
def State.beatCycle (kind : BeatKind) (s : State) : BitVec 16 :=
  match kind with
  | .founding => 0
  | .holder | .taker => s.expectedCycle

/-- Whether the line interface admits a beat: founding only in LISTEN, holder and taker only in LOCKED
(R35). -/
def beatAdmitted (kind : BeatKind) (sync : SyncState) : Bool :=
  match kind with
  | .founding => decide (sync = .listen)
  | .holder | .taker => decide (sync = .locked)

/-- The beat's start instant: driven when admitted, refused otherwise (R35). While the own beat is being
sent the decoder reads no received beat (R39), not one that starts in the same bit time either. -/
def State.startBeat (kind : BeatKind) (s : State) : State :=
  if beatAdmitted kind s.beat.sync then
    { s with
      beat := { s.beat with request := .sending kind (s.beatCycle kind) 0 }
      line := { s.line.drive .beat (encodeBeat (s.beatCycle kind)) with candidate := none } }
  else { s with beat := { s.beat with request := .idle } }

/-- Whether the decoder is reading a candidate whose start edge lies before this instant (R53, R60,
R61). -/
def State.readingCandidate (s : State) : Bool :=
  match s.line.candidate with
  | some age => decide (0 < age)
  | none => false

/-- A beat is requested at this instant: it waits for a candidate being read, else it starts. -/
def State.requestBeat (kind : BeatKind) (s : State) : State :=
  if s.readingCandidate then { s with beat := { s.beat with request := .waiting kind } }
  else s.startBeat kind

/-! ## Received beats (R49 to R51, R54) -/

/-- The SYNC record of a cycle-number jump, with the sync state as it stands (R47, R50). -/
def jumpRecord (cycle expected : BitVec 16) (sync : SyncState) (holder : Option Addr) :
    List RecordBody :=
  if cycle = expected then [] else [.sync sync .cycleJump holder]

/-- Whether the start instant lies within expiry ± 5 (R54). -/
def confirms (start : Int) : Bool :=
  decide ((expiry : Int) - 5 ≤ start) && decide (start ≤ (expiry : Int) + 5)

/-- Whether a good beat that starts at `start` of the cycle timer is accepted in the wait (R50): the wait
is open and the beat does not start before it. -/
def State.inWait (start : Int) (s : State) : Bool :=
  s.beat.waitOpen && decide ((waitOpening : Int) ≤ start)

/-- A good beat in LISTEN (R49). `age` is the time since its start instant. -/
def State.hearBeat (cycle : BitVec 16) (start : Int) (age : Nat) (keys : KeyPins) (s : State) : State :=
  ({ s with beat := { s.beat with
      coldStart := none, firstBeat := true, failures := 0, request := .idle } } : State).cycleStart
    { age := age, cycle := cycle, displacement := some ((expiry : Int) - start), own := false,
      sync := .aligning, records := [.sync .aligning .beatHeard s.beat.holder], keys := keys } false

/-- A good beat accepted in the wait (R50); in ALIGNING it confirms or becomes the first beat (R54). The
order of a jump record and of the CONFIRMED record is free (log entry 3). -/
def State.acceptBeat (cycle : BitVec 16) (start : Int) (age : Nat) (keys : KeyPins) (s : State) :
    State :=
  let confirmed := decide (s.beat.sync = .aligning) && confirms start && s.beat.firstBeat
  let beat := { s.beat with
    failures := 0
    firstBeat := s.beat.firstBeat || decide (s.beat.sync = .aligning)
    obsCount := if confirmed then 0 else s.beat.obsCount }
  let sync := if confirmed then .observing else s.beat.sync
  let jumpFirst := Config.jumpFirst s.cycleStarts
  let jump := jumpRecord cycle s.expectedCycle (if jumpFirst then s.beat.sync else sync) s.beat.holder
  let change := if confirmed then [RecordBody.sync .observing .confirmed s.beat.holder] else []
  ({ s with beat := beat } : State).cycleStart
    { age := age, cycle := cycle, displacement := none, own := false, sync := sync,
      records := if jumpFirst then jump ++ change else change ++ jump, keys := keys } false

/-- A good beat adopted outside the wait (R51); in ALIGNING it becomes the first beat (R54). -/
def State.adoptBeat (cycle : BitVec 16) (start : Int) (age : Nat) (keys : KeyPins) (s : State) : State :=
  ({ s with beat := { s.beat with
      failures := 0
      firstBeat := s.beat.firstBeat || decide (s.beat.sync = .aligning) } } : State).cycleStart
    { age := age, cycle := cycle, displacement := some ((expiry : Int) - start), own := false,
      sync := s.beat.sync,
      records := jumpRecord cycle s.expectedCycle s.beat.sync s.beat.holder, keys := keys } false

/-- A good beat, by the sync state and its position (R49, R50, R51). -/
def State.takeBeat (cycle : BitVec 16) (age : Nat) (keys : KeyPins) (s : State) : State :=
  let start : Int := (s.beat.timer : Int) - age
  if s.beat.sync = .listen then s.hearBeat cycle start age keys
  else if s.inWait start then s.acceptBeat cycle start age keys
  else s.adoptBeat cycle start age keys

/-- The decoder's candidate is decided: it reads no candidate any more (R39), and needs four recessive
readings before it takes the next start edge (R36). -/
def State.dropCandidate (s : State) : State :=
  { s with line := { s.line with candidate := none, beatQuiet := 0 } }

/-! ## Commands of the beat decoder -/

/-- BEAT_CANDIDATE_FOUND (R36, R39): a start edge at position `at'` of the cycle timer is taken while no
candidate is being read and no own beat is being sent. Of the `recessive` readings before it, those since the
decoder's last reception, or since reset release, count (R36, R46). -/
def execBeatCandidateFound (at' recessive : Nat) (s : State) : Host.Outcome State Fault Refusal :=
  .next <|
    if s.inReset then s
    else
      let s := s.elapseTo at'
      let busy := match s.beat.request with
        | .sending _ _ _ => true
        | _ => s.line.candidate.isSome
      if isStartEdge (min recessive s.line.beatQuiet) ∧ busy = false then
        { s with line := { s.line with candidate := some 0 } }
      else s

/-- BEAT_CANDIDATE_DROPPED (R39): after eight bits when they are not the beat pattern, after 32 when the
CRC-8 fails. A candidate that passes both is not dropped. -/
def execBeatCandidateDropped (word : BitVec 32) (s : State) : Host.Outcome State Fault Refusal :=
  .next <|
    if s.inReset then s
    else match s.line.candidate with
      | none => s
      | some age =>
        if (goodBeat word).isSome then s
        else
          let s := s.elapse ((if hasBeatPattern word then beatBits else 8) - age)
          s.dropCandidate

/-- GOOD_BEAT_DELIVERED (R39, R49 to R51): the 32 bits of the candidate are read. Bits that fail the
pattern or the CRC-8 are no good beat: the candidate is dropped (R39). -/
def execGoodBeatDelivered (word : BitVec 32) (keys : KeyPins) (s : State) :
    Host.Outcome State Fault Refusal :=
  .next <|
    if s.inReset then s
    else match s.line.candidate with
      | none => s
      | some age =>
        let s := (s.elapse (beatBits - age)).dropCandidate
        match s.beat.request, goodBeat word with
        | .sending _ _ _, _ => s
        | _, none => s
        | _, some cycle => s.takeBeat cycle (max age beatBits) keys

/-! ## Commands of the beat unit -/

/-- CYCLE_TIMER_EXPIRY (R49): in LISTEN a new cycle starts at the expiry. -/
def execCycleTimerExpiry (keys : KeyPins) (s : State) : Host.Outcome State Fault Refusal :=
  .next <|
    if s.inReset then s
    else if s.beat.sync = .listen then
      let s := s.elapseTo expiry
      s.cycleStart
        { age := s.beat.timer - expiry, cycle := s.expectedCycle, displacement := none, own := false,
          sync := .listen, records := [], keys := keys } false
    else s

/-- COLD_START_EXPIRY (R53): in LISTEN the running cold-start timer expires and a founding beat is
requested. -/
def execColdStartExpiry (s : State) : Host.Outcome State Fault Refusal :=
  .next <|
    if s.inReset then s
    else match s.beat.sync, s.beat.coldStart with
      | .listen, some left =>
        let s := s.elapse left
        ({ s with beat := { s.beat with coldStart := none } } : State).requestBeat .founding
      | _, _ => s

/-- BEAT_WAIT_OPEN (R50): at expiry − 8, in every sync state other than LISTEN. -/
def execBeatWaitOpen (s : State) : Host.Outcome State Fault Refusal :=
  .next <|
    if s.inReset then s
    else if s.beat.sync = .listen then s
    else
      let s := s.elapseTo waitOpening
      { s with beat := { s.beat with waitOpen := true } }

/-- Whether the node is to send the beat of the coming boundary as holder (R60). -/
def State.isHolder (s : State) : Bool :=
  decide (s.beat.sync = .locked) && decide (s.beat.holder = some s.own) && decide (s.beat.barred = 0)

/-- HOLDER_BEAT_REQUEST (R60), at the expiry. While a request is in progress it does nothing (log entry 44). -/
def execHolderBeatRequest (s : State) : Host.Outcome State Fault Refusal :=
  .next <|
    if s.inReset then s
    else if s.isHolder ∧ s.beat.request = .idle then (s.elapseTo expiry).requestBeat .holder
    else s

/-- TAKER_DECISION (R61), at expiry + 8, while no beat has been accepted in the wait. -/
def execTakerDecision (s : State) : Host.Outcome State Fault Refusal :=
  .next <|
    if s.inReset then s
    else match s.beat.rank with
      | none => s
      | some r =>
        if s.beat.sync = .locked ∧ s.beat.barred = 0 ∧ s.beat.waitOpen then
          let s := s.elapseTo takerDecisionAt
          { s with beat := { s.beat with takerAt := some (takeoverAt r.val) } }
        else s

/-- TAKER_BEAT_START (R61), at the takeover instant. -/
def execTakerBeatStart (s : State) : Host.Outcome State Fault Refusal :=
  .next <|
    if s.inReset then s
    else match s.beat.takerAt with
      | none => s
      | some p =>
        let s := s.elapseTo p
        ({ s with beat := { s.beat with takerAt := none } } : State).requestBeat .taker

/-- DEFERRED_BEAT_START (R53, R60, R61): at the next bit time after the candidate was dropped. -/
def execDeferredBeatStart (s : State) : Host.Outcome State Fault Refusal :=
  .next <|
    if s.inReset then s
    else match s.beat.request, s.line.candidate with
      | .waiting kind, none => (s.elapse 1).startBeat kind
      | _, _ => s

/-! ## Own beats -/

/-- The own transmission has ended: request done, line released. The decoder has read the frame to its end
(R36, R39). -/
def State.endBeat (s : State) : State :=
  { s with
    beat := { s.beat with request := .idle }
    line := { s.line.release .beat with beatQuiet := 0 } }

/-- A clean founding beat (R53). -/
def State.found (age : Nat) (keys : KeyPins) (s : State) : State :=
  ({ s with
      beat := { s.beat with
        coldStart := none, failures := 0, holder := some s.own, rank := none }
      census := { s.census with ownCollisions := 0 } } : State).cycleStart
    { age := age, cycle := 0, displacement := some ((expiry : Int) - ((s.beat.timer : Int) - age)),
      own := true, sync := .locked, records := [.sync .locked .founded (some s.own)], keys := keys }
    false

/-- A clean beat as holder or taker: the cycle start of the boundary, while its wait is open (R50). Once
the wait is closed it only clears the beat-failure counter (R63, log entry 10). -/
def State.ownBeatClean (age : Nat) (keys : KeyPins) (s : State) : State :=
  let s1 := { s with beat := { s.beat with failures := 0 } }
  if s.beat.waitOpen then
    s1.cycleStart
      { age := age, cycle := s.expectedCycle, displacement := none, own := true, sync := s.beat.sync,
        records := [], keys := keys } false
  else s1

/-- A colliding beat as holder or taker: beat-barred (R62). -/
def State.bar (s : State) : State :=
  { s with beat := { s.beat with barred := barCycles, candidate := false } }

/-- A colliding founding beat: the cold-start timer is started again (R53). -/
def State.refound (s : State) : State :=
  { s with beat := { s.beat with coldStart := some (coldStartDelay s.own.val) } }

/-- BEAT_READBACK_OUTCOME (R43, R50, R53, R62). -/
def execBeatReadbackOutcome (read : BitVec 32) (keys : KeyPins) (s : State) :
    Host.Outcome State Fault Refusal :=
  .next <|
    if s.inReset then s
    else match s.beat.request with
      | .sending kind cycle age =>
        let s := (s.elapse (beatBits - age)).endBeat
        match compareReadback (encodeBeat cycle) (readBits read), kind with
        | .clean, .founding => s.found (max age beatBits) keys
        | .clean, _ => s.ownBeatClean (max age beatBits) keys
        | .collision, .founding => s.refound
        | .collision, _ => s.bar
      | _ => s

/-! ## Beat failure (R54, R63) -/

/-- A beat failure in ALIGNING (R54): the third one returns to LISTEN. -/
def State.failAligning (cs : CycleStart) (s : State) : State :=
  if s.beat.failures + 1 < 3 then
    ({ s with beat := { s.beat with
        firstBeat := false, failures := s.beat.failures + 1 } } : State).cycleStart cs false
  else
    ({ s with beat := { s.beat with
        firstBeat := false, failures := 0,
        coldStart := some (coldStartDelay s.own.val) } } : State).cycleStart
      { cs with sync := .listen, records := [.sync .listen .noBeat s.beat.holder] } false

/-- A beat failure in the other states (R63): the third one is a rejoin with reason LOST (R64). -/
def State.failJoined (cs : CycleStart) (s : State) : State :=
  ({ s with beat := { s.beat with failures := s.beat.failures + 1 } } : State).cycleStart cs
    (decide (3 ≤ s.beat.failures + 1))

/-- BEAT_HORIZON (R63), at expiry + 528 while the wait is open. -/
def execBeatHorizon (keys : KeyPins) (s : State) : Host.Outcome State Fault Refusal :=
  .next <|
    if s.inReset then s
    else if s.beat.sync ≠ .listen ∧ s.beat.waitOpen then
      let s := s.elapseTo horizon
      let cs : CycleStart :=
        { age := s.beat.timer - horizon, cycle := s.expectedCycle, displacement := none, own := false,
          sync := s.beat.sync, records := [], keys := keys }
      if s.beat.sync = .aligning then s.failAligning cs else s.failJoined cs
    else s

end Sys2Proof.Machine
end

