-- ==== Sys2Proof/Machine/CensusClose.lean ====
section
/-! DEFINITION. The census close (R74): census unit, beat unit, lane manager, and the rejoin on
divergence. Command CENSUS_CLOSE. -/

namespace Sys2Proof.Machine

/-! ## Census unit (R70, R72, R77) -/

/-- The own-slot collision counter after a census close, and whether an own-slot conflict is reported
(R70). -/
def ownSlotCollisions (sync : SyncState) (readback : Option Readback) (count : Nat) : Nat × Bool :=
  if sync.reports then
    match readback with
    | some .clean => (0, false)
    | some .collision => if count + 1 < 2 then (count + 1, false) else (0, true)
    | none => (count, false)
  else (count, false)

/-- The census unit's own findings: peers, collision counter (R70, R77). -/
def State.closeCensus (s : State) : State :=
  { s with census := { s.census with
      peers := updatePeers s.own s.keys.fingerprint s.census.entries s.census.peers
      ownCollisions := (ownSlotCollisions s.beat.sync s.census.readback s.census.ownCollisions).1 } }

/-! ## Beat unit (R55 to R59) -/

/-- The holder's report of a census: the lowest-addressed with the holder flag set (R55). -/
def holderReport (entries : CensusEntries) : Option Report :=
  ((List.finRange 16).filterMap fun a => entries[a]).find? (·.holder)

/-- The address of the holder's report: the lowest address whose report has the holder flag (R55). -/
def holderAddress (entries : CensusEntries) : Option Addr :=
  (List.finRange 16).find? fun a => match entries[a] with
    | some r => r.holder
    | none => false

/-- The candidate list (R59): PRESENT addresses whose report carries the candidate flag, ascending. -/
def candidateList (d : Delivery) : List Addr :=
  (List.finRange 16).filter fun a =>
    decide (d.peers[a].presence = .present) &&
      (match d.entries[a] with
       | some r => r.candidate
       | none => false)

/-- A position in the candidate list without its first element, as a takeover rank (R59). -/
def rankIn (own : Addr) (cands : List Addr) : Option (Fin 15) :=
  match cands.tail.findIdx? (· == own) with
  | some i => if h : i < 15 then some ⟨i, h⟩ else none
  | none => none

/-- Holder selection of a LOCKED node (R59). -/
def State.selectHolder (s : State) : State :=
  let cands := candidateList s.delivery
  { s with beat := { s.beat with holder := cands.head?, rank := rankIn s.own cands } }

/-- Outside LOCKED the holder identity follows the holder's report, if there is one, and no rank is kept
(R55 to R59). -/
def State.followHolder (s : State) : State :=
  { s with beat := { s.beat with
      holder := match holderAddress s.census.entries with
        | some a => some a
        | none => s.beat.holder
      rank := none } }

/-- A sync state change at the census close, with its SYNC record (R47). -/
def State.changeSync (new : SyncState) (reason : SyncReason) (s : State) : State × List RecordBody :=
  (s.setSync new, [.sync new reason s.beat.holder])

/-- OBSERVING at a census close (Table 4-5). Entry into ENTERING clears the entering count and the
own-slot collision counter (R55, R70). -/
def State.observe (s : State) : State × List RecordBody :=
  let s := s.followHolder
  match holderReport s.census.entries with
  | none => (s, [])
  | some r =>
    if r.fingerprint = s.keys.fingerprint then
      if s.beat.obsCount + 1 < 2 then
        ({ s with beat := { s.beat with obsCount := s.beat.obsCount + 1 } }, [])
      else
        ({ s with
            beat := { s.beat with obsCount := 2, entCount := 0 }
            census := { s.census with ownCollisions := 0 } } : State).changeSync .entering .fingerprintOk
    else
      ({ s with beat := { s.beat with obsCount := 0 } } : State).changeSync .incompatible .mismatch

/-- INCOMPATIBLE at a census close (R56). -/
def State.recheck (s : State) : State × List RecordBody :=
  let s := s.followHolder
  match holderReport s.census.entries with
  | none => (s, [])
  | some r =>
    if r.fingerprint = s.keys.fingerprint then
      ({ s with beat := { s.beat with obsCount := 0 } } : State).changeSync .observing .matched
    else (s, [])

/-- The step from ENTERING to LOCKED (R57, R59). -/
def State.becomeLocked (s : State) : State × List RecordBody :=
  let s := (s.setSync .locked).selectHolder
  (s, [.sync .locked .entered s.beat.holder])

/-- Entry into CONFLICT (R58, R71). The node's own report, which read back a collision, counts as the holder's
report when its holder flag is set (DESIGN CHOICE, log entry 41). -/
def State.enterConflict (s : State) : State × List RecordBody :=
  let s := s.followHolder
  ({ s with
      beat := { s.beat with holderCond := false, entCount := 0 }
      census := { s.census with conflictWait := conflictCycles } } : State).changeSync .conflict
    .slotConflict

/-- ENTERING at a census close without a conflict (R57). -/
def State.enter (s : State) : State × List RecordBody :=
  let mismatch := match holderReport s.census.entries with
    | some r => decide (r.fingerprint ≠ s.keys.fingerprint)
    | none => false
  if mismatch then
    let s := s.followHolder
    ({ s with beat := { s.beat with entCount := 0 } } : State).changeSync .incompatible .mismatch
  else match s.census.readback with
    | some .clean =>
      if s.beat.entCount + 1 < 2 then
        let s := s.followHolder
        ({ s with beat := { s.beat with entCount := s.beat.entCount + 1 } }, [])
      else ({ s with beat := { s.beat with entCount := 2 } } : State).becomeLocked
    | some .collision =>
      let s := s.followHolder
      ({ s with beat := { s.beat with entCount := 0 } }, [])
    | none => (s.followHolder, [])

/-- CONFLICT at a census close (R58, R72): the conflict wait ends when its counter stands at 0. -/
def State.waitConflict (s : State) : State × List RecordBody :=
  let s := s.followHolder
  if s.census.conflictWait = 0 then
    ({ s with beat := { s.beat with obsCount := 0 } } : State).changeSync .observing .waitEnded
  else (s, [])

/-- The beat unit's census-close decisions, by the sync state before; `conflict` is the census unit's
report of an own-slot conflict (R55 to R59). -/
def State.beatAtCensus (conflict : Bool) (s : State) : State × List RecordBody :=
  match s.beat.sync with
  | .observing => s.observe
  | .incompatible => s.recheck
  | .conflict => s.waitConflict
  | .entering => if conflict then s.enterConflict else s.enter
  | .locked => if conflict then s.enterConflict else (s.selectHolder, [])
  | .listen | .aligning => (s, [])

/-! ## The census close -/

/-- The rejoin on divergence, once the census-close operation has run to its end (R122). -/
def State.rejoinIfDiverged (s : State) : State × List RecordBody :=
  if 4 ≤ s.lanes.divergence then s.rejoin .diverged else (s, [])

/-- The census close in a receiving sync state (R74, R165). -/
def State.censusClose (s : State) : State :=
  let conflict := (ownSlotCollisions s.beat.sync s.census.readback s.census.ownCollisions).2
  let s1 := s.closeCensus
  let b := s1.beatAtCensus conflict
  let l := b.1.lanesAtCensus conflict
  let r := l.1.rejoinIfDiverged
  r.1.raise (peerRecords s.own s.census.peers s1.census.peers ++ b.2 ++ l.2 ++ r.2)

/-- CENSUS_CLOSE (R74), at bit time 1600; without effect in LISTEN and ALIGNING. -/
def execCensusClose (s : State) : Host.Outcome State Fault Refusal :=
  .next <|
    if s.inReset then s
    else
      let s := s.elapseTo censusCloseAt
      if s.beat.sync.receives then s.censusClose else s

end Sys2Proof.Machine
end

