-- ==== Sys2Proof/Machine/Reset.lean ====
section
/-! DEFINITION. Commands HARDWARE_RESET and RESET_RELEASE. -/

namespace Sys2Proof.Machine

/-- HARDWARE_RESET (R14, R31, R46, R65, R82, R108, R137, R147, R159, R168): every block is held in its
reset values. The waiting commands and the model's own counter stay. -/
def execHardwareReset (s : State) : Host.Outcome State Fault Refusal :=
  .next { State.reset with cycleStarts := s.cycleStarts, pending := s.pending }

/-- The strap values and the fingerprint at reset release (R149, R151), and the first samples of the keys
(R153). -/
def KeyUnit.release (straps : StrapPins) (keys : KeyPins) (k : KeyUnit) : KeyUnit :=
  ({ k with
      straps := sampleStraps straps
      fingerprint := (sampleStraps straps).makeFingerprint } : KeyUnit).sampleKeys keys

/-- Reset release (R65, R149, R152, R168): the first free-running cycle starts in LISTEN, the cold-start
timer starts, STARTED is queued with cycle number 0. -/
def State.release (straps : StrapPins) (keys : KeyPins) (s : State) : State :=
  let k := s.keys.release straps keys
  ({ s with
      inReset := false
      keys := k
      beat := { s.beat with coldStart := some (coldStartDelay k.straps.addr.val) } } : State).raise
    [.started k.straps k.fingerprint]

/-- RESET_RELEASE (R149): ends a hardware reset. Without one there is nothing to release. -/
def execResetRelease (straps : StrapPins) (keys : KeyPins) (s : State) :
    Host.Outcome State Fault Refusal :=
  .next <| if s.inReset then s.release straps keys else s

end Sys2Proof.Machine
end

