-- ==== Sys2Proof/Machine/Status.lean ====
section
/-! DEFINITION. Status port (chapter 11): commands STATUS_TRANSMISSION_START and RECORD_LAST_STOP_BIT. -/

namespace Sys2Proof.Machine

/-- The bit period in which the next record may start: the first boundary of the bit clock from now on that
neither cuts off the record before nor the ten bit periods after reset release (R161, R163, R168). -/
def StatusPort.nextStart (p : StatusPort) : Nat := max p.nextFree (nextBitPeriod p.bitClock)

/-- The bit times until bit period `n` starts; the last one may hold its start. -/
def StatusPort.untilBitPeriod (n : Nat) (p : StatusPort) : Nat := (bitPeriodStart n - p.bitClock) / 4

/-- The head record starts (R163): it leaves the queue, takes the overrun flag with it, and its bytes are
fixed. -/
def StatusPort.startTx (start : Nat) (p : StatusPort) : StatusPort :=
  match p.queue with
  | r :: rest =>
    { p with
      queue := rest
      tx := some { record := r, overrun := p.overrun, bytes := r.bytes p.overrun, startBit := start }
      overrun := false }
  | [] => p

/-- The bit period after the last stop bit of a record, ten bit periods a byte after its start (R161). -/
def StatusTx.endBit (t : StatusTx) : Nat := t.startBit + 10 * t.bytes.length

/-- The record in transmission is through. -/
def StatusPort.endTx (t : StatusTx) (p : StatusPort) : StatusPort :=
  { p with tx := none, nextFree := t.endBit }

/-- STATUS_TRANSMISSION_START (R163): at the next boundary at which a record may start. -/
def execStatusTransmissionStart (s : State) : Host.Outcome State Fault Refusal :=
  .next <|
    if s.inReset then s
    else if s.status.tx.isSome ∨ s.status.queue = [] then s
    else
      let start := s.status.nextStart
      let s := s.elapse (s.status.untilBitPeriod start)
      { s with status := s.status.startTx start }

/-- RECORD_LAST_STOP_BIT (R161, R163): the last stop bit of the record in transmission ends. -/
def execRecordLastStopBit (s : State) : Host.Outcome State Fault Refusal :=
  .next <|
    if s.inReset then s
    else match s.status.tx with
      | none => s
      | some t =>
        let s := s.elapse (s.status.untilBitPeriod t.endBit)
        { s with status := s.status.endTx t }

end Sys2Proof.Machine
end

