-- ==== Sys2Proof/Machine/Dispatch.lean ====
section
/-! DEFINITION. The effect of each command on everything but the queue, one arm per constructor. -/

namespace Sys2Proof.Machine

def exec (i : Instr) (s : State) : Host.Outcome State Fault Refusal :=
  match i with
  | .hardwareReset => Sys2Proof.Machine.execHardwareReset s
  | .resetRelease straps keys => Sys2Proof.Machine.execResetRelease straps keys s
  | .outputInstant k => Sys2Proof.Machine.execOutputInstant k s
  | .cycleTimerExpiry keys => Sys2Proof.Machine.execCycleTimerExpiry keys s
  | .coldStartExpiry => Sys2Proof.Machine.execColdStartExpiry s
  | .beatWaitOpen => Sys2Proof.Machine.execBeatWaitOpen s
  | .holderBeatRequest => Sys2Proof.Machine.execHolderBeatRequest s
  | .takerDecision => Sys2Proof.Machine.execTakerDecision s
  | .takerBeatStart => Sys2Proof.Machine.execTakerBeatStart s
  | .deferredBeatStart => Sys2Proof.Machine.execDeferredBeatStart s
  | .goodBeatDelivered word keys => Sys2Proof.Machine.execGoodBeatDelivered word keys s
  | .beatCandidateDropped word => Sys2Proof.Machine.execBeatCandidateDropped word s
  | .beatReadbackOutcome read keys => Sys2Proof.Machine.execBeatReadbackOutcome read keys s
  | .beatHorizon keys => Sys2Proof.Machine.execBeatHorizon keys s
  | .detectorPublication => Sys2Proof.Machine.execDetectorPublication s
  | .ownReportSlotStart => Sys2Proof.Machine.execOwnReportSlotStart s
  | .reportReadbackOutcome read => Sys2Proof.Machine.execReportReadbackOutcome read s
  | .reportSlotDelivered slot rx => Sys2Proof.Machine.execReportSlotDelivered slot rx s
  | .laneSlotStart lane => Sys2Proof.Machine.execLaneSlotStart lane s
  | .laneReadbackOutcome read => Sys2Proof.Machine.execLaneReadbackOutcome read s
  | .laneSlotDelivered lane rx => Sys2Proof.Machine.execLaneSlotDelivered lane rx s
  | .mixFormationEnd => Sys2Proof.Machine.execMixFormationEnd s
  | .outputFrameStart k => Sys2Proof.Machine.execOutputFrameStart k s
  | .censusClose => Sys2Proof.Machine.execCensusClose s
  | .statusTransmissionStart => Sys2Proof.Machine.execStatusTransmissionStart s
  | .pdmDataSample level => Sys2Proof.Machine.execPdmDataSample level s
  | .beatCandidateFound position recessive => Sys2Proof.Machine.execBeatCandidateFound position recessive s
  | .recordLastStopBit => Sys2Proof.Machine.execRecordLastStopBit s

end Sys2Proof.Machine
end

