-- ==== Sys2Proof/Safety.lean ====
section
/-! DEFINITION. What counts as a sound state of a node, in the words of the spec's whole-machine sentences,
and what a safe run is. -/

namespace Sys2Proof.Machine

/-- While hardware reset lasts, every block holds its reset values (R14, R31, R46, R65, R82, R108, R137,
R147, R159, R168). -/
def State.HeldInReset (s : State) : Prop :=
  s.inReset = true → s = { State.reset with cycleStarts := s.cycleStarts, pending := s.pending }

/-! ## Membership of the line -/

/-- The candidate flag is set exactly while the node is LOCKED and not beat-barred (R59). -/
def State.CandidateSound (s : State) : Prop :=
  s.beat.candidate = (decide (s.beat.sync = .locked) && decide (s.beat.barred = 0))

/-- The own peer-table entry is PRESENT exactly while the node is LOCKED, with its counts (R80). -/
def State.OwnEntrySound (s : State) : Prop :=
  s.census.peers[s.own] =
    if s.beat.sync = .locked then { presence := .present, good := 2, miss := 0 }
    else { presence := .absent, good := 0, miss := 0 }

/-- Outside LOCKED the node owns no lane, in the table or in the slot copy, and requests none (R107). -/
def State.NoLaneOutsideLocked (s : State) : Prop :=
  s.beat.sync ≠ .locked →
    s.lanes.request = .none ∧ s.lanes.table.laneOf s.own = none ∧ s.lanes.slotCopy.laneOf s.own = none

/-- A founding beat is requested or sent in LISTEN only (R35, R53). -/
def State.FoundingSound (s : State) : Prop :=
  (s.beat.request = .waiting .founding ∨ ∃ c age, s.beat.request = .sending .founding c age) →
    s.beat.sync = .listen

/-- What the sync state says of the rest of the node. -/
structure State.Membership (s : State) : Prop where
  held      : s.HeldInReset
  founding  : s.FoundingSound
  candidate : s.CandidateSound
  ownEntry  : s.OwnEntrySound
  noLane    : s.NoLaneOutsideLocked

/-! ## Lane tables -/

/-- Lanes of index `m` or above are FREE, and no address owns two lanes (R84). -/
structure LaneTable.Legal (m : Nat) (t : LaneTable) : Prop where
  unused : ∀ l : Lane, m ≤ l.val → t[l] = .free
  single : ∀ (k l : Lane) (a : Addr), t[k].owner = some a → t[l].owner = some a → k = l

/-- Lane table and slot copy are legal, and the own digest is that of the table (R84, R99). -/
structure State.TablesSound (s : State) : Prop where
  held   : s.HeldInReset
  table  : s.lanes.table.Legal s.laneCount
  copy   : s.lanes.slotCopy.Legal s.laneCount
  digest : s.lanes.digest = s.lanes.table.digest

/-! ## Status queue -/

/-- At most 16 records wait, and no two with one coalescing key (R163). -/
structure StatusPort.Sound (p : StatusPort) : Prop where
  bound : p.queue.length ≤ 16
  keys  : p.queue.Pairwise fun x y => sameKey x.body y.body = false

/-! ## Speech detector -/

/-- Ranges and ties of the detector's state (Table 2-1, R25, R27, R28). -/
structure Detector.Sound (d : Detector) : Prop where
  score    : d.score ≤ 255
  floor    : d.floor ≤ 255
  rise     : d.rise ≤ 7
  silent   : d.state = .silent →
    d.score = 0 ∧ d.hist1 = false ∧ d.hist2 = false ∧ d.hist3 = false
  hangover : if d.state = .hangover then 1 ≤ d.hangover ∧ d.hangover ≤ 200 else d.hangover = 0

/-- What the detector publishes is what it holds (R17). -/
def Detector.Published (d : Detector) : Prop := d.outState = d.state ∧ d.outScore = d.score

/-! ## Counters -/

/-- The counts of a peer-table entry that go with its presence (Table 5-4, R77). -/
def PeerEntry.Sound (p : PeerEntry) : Prop :=
  match p.presence with
  | .absent => p.good = 0 ∧ p.miss = 0
  | .arriving => p.good = 1 ∧ p.miss = 0
  | .present => p.good = 2 ∧ p.miss = 0
  | .missing => p.good = 2 ∧ (p.miss = 1 ∨ p.miss = 2)
  | .foreign => p.good = 0 ∧ p.miss ≤ 2

/-- The counters as they stand between events, each within its range (R12, R36, R55, R57, R62, R63, R70, R72,
R77, R88, R120, R123, R153, R156, R167), and the phase of OCLK at a bit time (R145; that bit times fall on
every fourth crystal period of OCLK is log entry 6). -/
structure State.CountersInRange (s : State) : Prop where
  stuck          : s.capture.stuckCount ≤ 1
  good           : s.capture.goodCount ≤ 3
  barred         : s.beat.barred ≤ 250
  failures       : s.beat.failures ≤ 2
  beatQuiet      : s.line.beatQuiet ≤ 4
  observation    : s.beat.obsCount ≤ 2
  entering       : s.beat.entCount ≤ 2
  ownCollisions  : s.census.ownCollisions ≤ 1
  conflictWait   : s.census.conflictWait ≤ 250
  waitAge        : s.lanes.waitAge ≤ 255
  divergence     : s.lanes.divergence ≤ 3
  laneCollisions : s.lanes.laneCollisions ≤ 1
  keyA           : s.keys.keyA.count ≤ 4
  keyB           : s.keys.keyB.count ≤ 4
  blink          : s.keys.blinkCount ≤ 124
  summary        : s.status.summaryCount ≤ 249
  peers          : ∀ a : Addr, s.census.peers[a].Sound
  oclk           : s.mix.oclk < 12 ∧ s.mix.oclk % 4 = 0

/-! ## Bank arbiter -/

/-- What waits at the bank arbiter: the reads in the order of raising, each reader's in sample order, the
detector's only during a processing, the transmitter's only while an own lane frame is sent (R10, R11). -/
structure State.ReadsSound (s : State) : Prop where
  order       : s.arbiter.reads.Pairwise fun x y => x.due ≤ y.due
  positions   : s.arbiter.reads.Pairwise fun x y => x.reader = y.reader → x.position < y.position
  detector    : ∀ r ∈ s.arbiter.reads, r.reader = .detector →
    r.due ≤ 0 ∧ s.detector.processing.isSome = true
  transmitter : ∀ r ∈ s.arbiter.reads, r.reader = .transmitter → s.audio.tx.isSome = true

/-- The request that access opportunity `t` from now is granted to: the writer's, else the read raised first,
if it is raised by then (R10). What is left waits on. -/
def grantOne (t : Nat) (waiting : Bool × List BankRead) : Bool × List BankRead :=
  if waiting.1 then (false, waiting.2)
  else match waiting.2 with
    | [] => (false, [])
    | r :: rest => if 4 * r.due ≤ t then (false, rest) else (false, r :: rest)

/-- The requests that wait after `n` access opportunities (R10). -/
def grantAll (n : Nat) (waiting : Bool × List BankRead) : Bool × List BankRead :=
  (List.range n).foldl (fun w t => grantOne t w) waiting

/-! ## Words of the statements -/

/-- The changes of sync state that Table 4-3 lists, besides staying and returning to LISTEN. -/
def SyncState.mayBecome (old new : SyncState) : Prop :=
  new = old ∨ new = .listen ∨
  match old with
  | .listen => new = .aligning ∨ new = .locked
  | .aligning => new = .observing
  | .observing => new = .entering ∨ new = .incompatible
  | .entering => new = .locked ∨ new = .incompatible ∨ new = .conflict
  | .locked => new = .conflict
  | .incompatible => new = .observing
  | .conflict => new = .observing

/-- What a frame that begins to be driven must be (R35): `s` is the state at the command. -/
def State.MayDrive (s : State) (x : LineTx) : Prop :=
  x.sent = 0 ∧
  match x.kind with
  | .beat => (s.beat.sync = .listen ∧ x.bits = encodeBeat 0) ∨
      (s.beat.sync = .locked ∧ x.bits = encodeBeat (s.beat.cycle + 1))
  | .report => (s.beat.sync = .entering ∨ s.beat.sync = .locked) ∧
      ∃ r : Report, x.bits = encodeReport r ∧ r.src = s.own
  | .lane => s.beat.sync = .locked ∧ ∃ (l : Lane) (f : LaneFrame), l.val < s.laneCount ∧
      s.lanes.slotCopy[l].owner = some s.own ∧ x.bits = encodeLane f ∧ f.src = s.own ∧ f.lane = l

/-- Position `e` of the readings for a slot is a start edge (R36): a dominant reading after four recessive
ones, all of them after `free`, where the receiver's last reception ended. The span opens at `opens`. -/
def IsEdge (rx : SlotRx) (opens free e : Nat) : Prop :=
  rx.readings[e]? = some false ∧ free + 4 ≤ opens + e ∧
  ∀ k, 1 ≤ k → k ≤ 4 → (k ≤ e → rx.readings[e - k]? = some true) ∧ (e < k → k - e ≤ rx.before)

/-- The first start edge in a span of `span` bit times, or that there is none (R37). -/
def FirstEdge (rx : SlotRx) (opens free span : Nat) (edge : Option Nat) : Prop :=
  match edge with
  | some e => e < span ∧ IsEdge rx opens free e ∧ ∀ k, k < e → ¬ IsEdge rx opens free k
  | none => ∀ k, k < span → ¬ IsEdge rx opens free k

/-- The bits of a frame that begins at position `e` of the readings. The line reads recessive after them. -/
def bitsFrom (rx : SlotRx) (e frame : Nat) : List Bool :=
  (rx.readings.drop e ++ List.replicate frame true).take frame

/-- `q` is `n / d` rounded to the nearest integer, halves away from zero (R4, R141). -/
def IsRounded (n : Int) (d : Nat) (q : Int) : Prop :=
  2 * (n - q * d).natAbs ≤ d ∧ (2 * (n - q * d).natAbs = d → n.natAbs < (q * d).natAbs)

/-- `y` is `x` saturated to 16 bits (R5, R141). -/
def IsSaturated (x : Int) (y : Sample) : Prop :=
  (32767 < x → y.toInt = 32767) ∧ (x < -32768 → y.toInt = -32768) ∧
    (-32768 ≤ x → x ≤ 32767 → y.toInt = x)

/-- A lane as the realigning cycle start leaves it: a span not yet delivered goes out as missing (R45). -/
def State.laneAtClose (s : State) (realigning : Bool) (l : Lane) : LaneRx :=
  if realigning ∧ s.line.laneSpans[l] = true then s.audio.lanes[l].judge s.lanes.slotCopy[l] s.own none
  else s.audio.lanes[l]

/-- The keys of `s` after a cycle start whose blink goes from `old` to `new` (R153, R155, R156). -/
structure KeysMoved (old new : SyncState) (pins : KeyPins) (j k : KeyUnit) : Prop where
  straps : k.straps = j.straps ∧ k.fingerprint = j.fingerprint
  keyA   : k.keyA = j.keyA.sample (!pins.keyA)
  keyB   : k.keyB = j.keyB.sample (!pins.keyB)
  mute   : k.muteLatch =
    if k.keyB.pressed = true ∧ j.keyB.pressed = false ∧ j.straps.role ≠ .listen then !j.muteLatch
    else j.muteLatch
  blink  :
    if old.blinks = true ∧ new.blinks = true then
      if j.blinkCount < 124 then k.blinkCount = j.blinkCount + 1 ∧ k.linkPhase = j.linkPhase
      else k.blinkCount = 0 ∧ k.linkPhase = !j.linkPhase
    else if new.blinks = true then k.blinkCount = 0 ∧ k.linkPhase = true
    else k.linkPhase = j.linkPhase ∧ k.blinkCount = if new = old then j.blinkCount else 0

/-- The records that a cycle start raises: those of the beat unit, of the capture unit and the SUMMARY,
each group in its order, the groups in any order (R6, R12, R165, R167). -/
def StatusMoved (cycle : BitVec 16) (beat capture summary : List RecordBody) (p q : StatusPort) : Prop :=
  ∃ order : Fin 6,
    q = ({ p with summaryCount := if p.summaryCount < 249 then p.summaryCount + 1 else 0 } :
      StatusPort).pushAll cycle (orderGroups order beat capture summary)

/-- The records of the capture unit when microphone state `before` becomes that of `done` (R6, R12). -/
def CaptureRaises (before : MicState) (done : Completion) (bs : List RecordBody) : Prop :=
  bs = (if done.mic = before then [] else [.mic done.mic]) ++
    (if done.validity = .valid ∧ done.clip = true then [.clip .capture] else [])

/-- The bank arbiter of `s` after a cycle start that leaves the bank as `bank` (R7, R10, R11, R16, R18): the
transmitter's read has ended. But for a listener the last sample waits to be written, and the detector reads
the slot of age 1, unless a processing is in progress. -/
def State.ArbiterBegun (bank : Capture) (a : Arbiter) (s : State) : Prop :=
  let ended := s.arbiter.reads.filter fun r => r.reader ≠ .transmitter
  (s.role = .listen → a = { s.arbiter with reads := ended }) ∧
  (s.role ≠ .listen → a.write = true ∧
    a.reads = if s.detector.processing.isSome then ended
      else insertReads (Config.detectorFirst s.cycleStarts) (detectorReads (bank.fill - 1)) ended)

/-- The contribution set of the left cycle completes at a realigning cycle start that finds a lane span not
yet delivered (R45, R136). -/
abbrev State.SetCloses (realigning : Bool) (s : State) : Prop :=
  realigning = true ∧ ∃ l : Lane, s.line.laneSpans[l] = true

/-- `t` is `s` after a cycle start without a rejoin: all that R48 delivers to the blocks. `cs` says what
the beat unit fixes with it. -/
structure State.CycleBegun (cs : CycleStart) (s t : State) : Prop where
  beat : t.beat = { s.beat with
    timer := cs.age, cycle := cs.cycle, sync := cs.sync, holderCond := cs.own
    barred := s.beat.barred - 1
    candidate := decide (cs.sync = .locked ∧ s.beat.barred ≤ 1)
    waitOpen := false, takerAt := none
    request := if s.beat.request = .waiting .holder ∨ s.beat.request = .waiting .taker then .idle
      else s.beat.request }
  census : t.census = { s.census with
    peers := if cs.sync = s.beat.sync then s.census.peers
      else put s.census.peers s.own
        (if cs.sync = .locked then { presence := .present, good := 2, miss := 0 }
         else { presence := .absent, good := 0, miss := 0 })
    entries := Vector.replicate 16 none
    readback := none
    conflictWait := if cs.sync = .conflict then s.census.conflictWait - 1 else s.census.conflictWait
    reportTx := if cs.displacement.isSome then none else s.census.reportTx }
  lanes : t.lanes = { s.lanes with
    slotCopy := s.lanes.table
    closingCycle := s.lanes.releasePending.isSome
    cutInCycle := false }
  line : t.line = { s.line with
    tx := if cs.displacement.isSome then
        s.line.tx.map fun x => { x with bits := x.bits.take (x.sent + 1) }
      else s.line.tx
    stopped := if cs.displacement.isSome then s.line.stopped ++ s.laneSent else s.line.stopped
    slotFree := if cs.displacement.isSome then cs.age else 0
    reportSpans := Vector.replicate 16 cs.sync.receives
    laneSpans := Vector.ofFn fun l => cs.sync.receives && decide (l.val < s.laneCount) }
  capture : t.capture = (s.capture.complete s.keys.straps cs.displacement).1
  detector : t.detector =
    s.detector.offer s.role t.capture (s.capture.complete s.keys.straps cs.displacement).2
  arbiter : s.ArbiterBegun t.capture t.arbiter
  laneTx : t.audio.tx = if cs.displacement.isSome then none else s.audio.tx
  laneRx : ∀ l : Lane, t.audio.lanes[l] = { s.laneAtClose cs.displacement.isSome l with
    faded := (s.laneAtClose cs.displacement.isSome l).faded ||
      (s.lanes.slotCopy[l].owner != s.lanes.table[l].owner)
    received := none, contribution := none }
  unlisted : t.audio.unlisted = (s.audio.unlisted && decide (s.status.summaryCount < 249))
  mix : t.mix = { s.mix with
    playing := s.mix.next, next := Buffer.zeros, nextStatus := .empty, formingNext := none, refAge := 0
    closed := decide (s.SetCloses cs.displacement.isSome)
    sets := if s.SetCloses cs.displacement.isSome then s.mix.sets + 1 else s.mix.sets
    formingPlaying :=
      if s.SetCloses cs.displacement.isSome then
        some
          { set := Vector.ofFn fun l =>
              (s.laneAtClose cs.displacement.isSome l).contribution.getD Contribution.zero
            number := s.mix.sets + 1, age := 0 }
      else s.mix.formingNext
    formingLeft := s.mix.formingLeft ++ s.mix.formingPlaying.toList.map (·.set) }
  keys : KeysMoved s.beat.sync cs.sync cs.keys s.keys t.keys
  status : ∃ capture, CaptureRaises s.capture.mic
      (s.capture.complete s.keys.straps cs.displacement).2 capture ∧
    StatusMoved cs.cycle cs.records capture
      (if s.status.summaryCount < 249 then [] else
        [.summary (Vector.ofFn fun l => t.lanes.table[l].owner)
          (Vector.ofFn fun a => decide (t.census.peers[a].presence = .present)) t.beat.holder
          s.audio.unlisted]) s.status t.status
  rest : t.inReset = s.inReset ∧ t.pending = s.pending ∧ t.cycleStarts = s.cycleStarts + 1

/-- What a rejoin leaves of the beat unit, the census unit, the lane manager, the lane audio unit, the
mix unit and the line interface (Table 4-6, R46, R82, R109, R138, R148), whatever it found there. -/
structure State.OffTheLine (t : State) : Prop where
  sync      : t.beat.sync = .listen
  holder    : t.beat.holder = none ∧ t.beat.rank = none
  flags     : t.beat.candidate = false ∧ t.beat.holderCond = false ∧ t.beat.firstBeat = false
  counters  : t.beat.barred = 0 ∧ t.beat.failures = 0 ∧ t.beat.obsCount = 0 ∧ t.beat.entCount = 0
  coldStart : t.beat.coldStart = some (36864 + 3072 * t.own.val)
  requests  : t.beat.request = .idle ∧ t.beat.waitOpen = false ∧ t.beat.takerAt = none
  peers     : ∀ a : Addr, t.census.peers[a] = { presence := .absent, good := 0, miss := 0 } ∧
    t.census.entries[a] = none
  census    : t.census.readback = none ∧ t.census.ownCollisions = 0 ∧ t.census.conflictWait = 0 ∧
    t.census.reportTx = none
  tables    : ∀ l : Lane, t.lanes.table[l] = .free ∧ t.lanes.slotCopy[l] = .free
  lanes     : t.lanes.request = .none ∧ t.lanes.waitAge = 0 ∧ t.lanes.releasePending = none ∧
    t.lanes.idleHold = false ∧ t.lanes.divergence = 0 ∧ t.lanes.laneCollisions = 0 ∧
    t.lanes.closingCycle = false ∧ t.lanes.cutInCycle = false ∧ t.lanes.digest = t.lanes.table.digest
  audio     : t.audio.tx = none ∧ ∀ l : Lane, t.audio.lanes[l] =
    { state := .muted, faded := true, lastGood := silence, received := none, contribution := none }
  mix       : t.mix.playing = Buffer.zeros ∧ t.mix.next = Buffer.zeros ∧ t.mix.nextStatus = .empty ∧
    t.mix.formingNext = none ∧ t.mix.formingPlaying = none ∧ t.mix.formingLeft = [] ∧ t.mix.closed = false
  driver    : t.line.stopped = [] ∧ ∀ x, t.line.tx = some x → x.bits.length ≤ x.sent + 1
  bank      : ∀ r ∈ t.arbiter.reads, r.reader ≠ .transmitter
  spans     : (∀ a : Addr, t.line.reportSpans[a] = false) ∧ ∀ l : Lane, t.line.laneSpans[l] = false

/-! ## Records of a census close (R165) -/

/-- The PEER records: one for each changed presence of another address, in ascending address (R79). -/
def PeersRaise (own : Addr) (before after : PeerTable) (bs : List RecordBody) : Prop :=
  bs = ((List.finRange 16).filter fun a => a ≠ own ∧ before[a].presence ≠ after[a].presence).map
    fun a => .peer a after[a].presence

/-- The SYNC record of a change at a census close, with its reason (R47, Table 4-3). It carries the holder
identity as the change leaves it (log entry 17). -/
def SyncRaises (old new : SyncState) (holder : Option Addr) (bs : List RecordBody) : Prop :=
  (new = old → bs = []) ∧
  (new ≠ old → ∃ reason, bs = [.sync new reason holder] ∧
    (new = .conflict → reason = .slotConflict) ∧ (new = .incompatible → reason = .mismatch) ∧
    (new = .entering → reason = .fingerprintOk) ∧ (new = .locked → reason = .entered) ∧
    (new = .observing → old = .incompatible → reason = .matched) ∧
    (new = .observing → old = .conflict → reason = .waitEnded))

/-- The winners of the lanes at the census close of `s` that leaves the sync state and the peer table of `t`
(R110, R111). -/
def State.winnersAt (s t : State) : Lane → Option Announcement :=
  winner s.laneCount
    (announcements t.beat.sync (if s.lanes.cutInCycle then some s.own else none)
      { entries := s.census.entries, peers := t.census.peers, m := s.laneCount })

/-- Lane `l` is adopted for `w`: it has a winner that the table before stage 1 does not list (R112). -/
def State.Adopts (s t : State) (l : Lane) (w : Announcement) : Prop :=
  s.winnersAt t l = some w ∧ s.lanes.table[l].owner ≠ some w.addr

/-- The stages 2, 6 and 7 of the election of `s` (R91 to R98), on the census as delivered with the peer table
of `t`. -/
def State.electionAt (s t : State) : ElectionResult :=
  elect s.keys.straps.policy
    { entries := s.census.entries, peers := t.census.peers, m := s.laneCount }
    (repairTable (s.winnersAt t) s.lanes.table s.lanes.table)

/-- The DIVERGENCE record of a LOCKED node whose divergence counter leaves 0 (R119, R121). -/
def State.DivergenceRaises (s t : State) (bs : List RecordBody) : Prop :=
  let own := match s.census.entries[s.own] with
    | some r => r.digest
    | none => s.lanes.digest
  let differs := fun (a : Addr) (z : BitVec 16) => z ≠ own ∧
    (a = s.own ∨ t.census.peers[a].presence = .present) ∧
    ∃ r, s.census.entries[a] = some r ∧ r.digest = z
  let leaves := t.beat.sync = .locked ∧ s.lanes.divergence = 0 ∧ t.lanes.divergence = 1
  (¬ leaves → bs = []) ∧
  (leaves → ∃ (most : BitVec 16) (count : BitVec 16 → Finset Addr), bs = [.divergence 1 own most] ∧
    (∀ z a, a ∈ count z ↔ differs a z) ∧ (count most).Nonempty ∧
    ∀ z, (count z).Nonempty → (count z).card < (count most).card ∨
      ((count z).card = (count most).card ∧ ∀ a ∈ count z, ∃ b ∈ count most, b ≤ a))

/-- The GATE record of stage 9, from the table before stage 1 and those after the stages (R100, R101, R103).
The GATE record of a loss to repair is none of it (R114, R115). -/
def State.GateRaises (s t : State) (bs : List RecordBody) : Prop :=
  let e := s.electionAt t
  let elects := t.beat.sync = .entering ∨ t.beat.sync = .locked
  (¬ elects → bs = []) ∧
  (elects → s.lanes.table.laneOf s.own = none → e.after7.laneOf s.own = none → bs = []) ∧
  (elects → s.lanes.table.laneOf s.own = none → ∀ l, e.after7.laneOf s.own = some l →
    bs = [.gate l true .grant]) ∧
  (elects → ∀ l, s.lanes.table.laneOf s.own = some l →
    ((∃ w, s.Adopts t l w) → bs = []) ∧
    ((∀ w, ¬ s.Adopts t l w) →
      (e.after2.laneOf s.own = none → ∀ reason, s.lanes.releasePending = some reason →
        bs = [.gate l false reason.gate]) ∧
      (e.after2.laneOf s.own ≠ none → e.after6.laneOf s.own = none →
        bs = [.gate l false .idleTaken]) ∧
      (e.after2.laneOf s.own ≠ none → e.after6.laneOf s.own ≠ none → e.after7.laneOf s.own = none →
        bs = [.gate l false .preempted]) ∧
      (e.after2.laneOf s.own ≠ none → e.after6.laneOf s.own ≠ none → e.after7.laneOf s.own ≠ none →
        bs = [])))

/-! ## Safe runs -/

/-- A sound state. -/
structure State.Sound (s : State) : Prop where
  membership : s.Membership
  tables     : s.TablesSound
  status     : s.status.Sound
  detector   : s.detector.Sound
  published  : s.detector.Published
  counters   : s.CountersInRange
  reads      : s.ReadsSound

/-- A run of `n` steps is safe when it ends in a sound state: no step of it stops the node. -/
def State.SafeRun (n : Nat) (s : State) : Prop :=
  match n with
  | 0 => s.Sound
  | n + 1 => s.Sound ∧ ∃ t, step s = .next t ∧ t.SafeRun n

end Sys2Proof.Machine
end

