-- ==== Sys2Proof/Certificates/Slice0/Obligations.lean ====
section
/-! DEFINITION. The statements about the GN16, for the provers. In each, `u` is the state the command acts
on: `s` once the time up to the command's instant has passed (log entry 8). -/

open Sys2Proof Sys2Proof.Machine

/-! ## Steps, pins and reset -/

/-- A step takes the command at the front of the queue and runs it with the queue's rest. Every command
completes in every state, and leaves the waiting commands alone. -/
def Obligations.StepRunsFrontCommand : Prop :=
  ∀ (c : Instr) (s : State),
    (∀ rest : List Instr, step { s with pending := c :: rest } = exec c { s with pending := rest }) ∧
    ∃ t, exec c s = .next t ∧ t.pending = s.pending

/-- On an empty queue one bit time passes, and nothing under reset (log entry 7). A bit time moves the cycle
timer, the cold-start timer, the frame on the line, the candidate, the readings since the last reception,
the own beat, the bank arbiter, the mixes being formed, the output port with the right slot that begins, and
the status bit clock (R10, R36, R48, R52, R140, R145, R161), and nothing else. Times add up. -/
def Obligations.EmptyQueueLetsOneBitTimePass : Prop :=
  ∀ s : State, s.pending = [] →
    (s.inReset = true → step s = .next s) ∧
    (s.inReset = false → step s = .next { s with
      beat := { s.beat with
        timer := s.beat.timer + 1
        coldStart := s.beat.coldStart.map fun left => left - 1
        request := match s.beat.request with
          | .idle => .idle
          | .waiting kind => .waiting kind
          | .sending kind cycle age => .sending kind cycle (age + 1) }
      line := { s.line with
        tx := s.line.tx.map fun x => { x with sent := x.sent + 1 }
        candidate := s.line.candidate.map fun age => age + 1
        beatQuiet := min 4 (s.line.beatQuiet + 1) }
      arbiter := s.arbiter.elapse 1
      mix := { s.mix with
        formingNext := s.mix.formingNext.map fun f => { f with age := f.age + 1 }
        formingPlaying := s.mix.formingPlaying.map fun f => { f with age := f.age + 1 }
        refAge := s.mix.refAge + 1
        oclk := (s.mix.oclk + 4) % 12
        frame := s.mix.frame.map fun f => { f with
          age := f.age + 1
          right := match f.right with
            | some x => some x
            | none => if 96 ≤ f.age + 1 then
                some (s.mix.slotSample Buffer.right (96 - f.age) f.position)
              else none } }
      status := { s.status with bitClock := s.status.bitClock + 4 } }) ∧
    ∀ m n : Nat, (s.elapse m).elapse n = s.elapse (m + n)

/-- What the node shows at its pins follows its state: the five indicators (R105, R156 to R158), dark
throughout hardware reset (R159), the level that the driver gives the line (R33), PDM_CLK (R1), and OCLK, low
in the first half of its period and in reset (R145). The phase of OCLK at its start is log entry 6. -/
def Obligations.IndicatorsAndPinsFollowTheState : Prop :=
  ∀ s : State,
    (s.inReset = true →
      s.linkLit = false ∧ s.gateLit = false ∧ s.waitLit = false ∧ s.muteLit = false ∧
      s.faultLit = false ∧ s.pdmClkRuns = false ∧ s.oclkHigh = false ∧ s.owsHigh = false ∧
      s.odatHigh = false) ∧
    (s.inReset = false →
      (s.linkLit = true ↔ s.beat.sync = .locked ∨ s.keys.linkPhase = true ∧
        (s.beat.sync = .aligning ∨ s.beat.sync = .observing ∨ s.beat.sync = .entering)) ∧
      (s.gateLit = true ↔ ∃ l : Lane, s.lanes.slotCopy[l].owner = some s.own) ∧
      (s.waitLit = true ↔ s.lanes.request = .claim ∨ s.lanes.request = .priority) ∧
      (s.muteLit = true ↔ s.role ≠ .listen ∧
        (s.keys.muteLatch = true ∨ s.role = .auto ∧ s.keys.keyA.pressed = true)) ∧
      (s.faultLit = true ↔ s.beat.sync = .incompatible ∨ s.beat.sync = .conflict ∨
        s.capture.mic = .fault ∨ 2 ≤ s.lanes.divergence) ∧
      (s.pdmClkRuns = true ↔ s.role ≠ .listen) ∧
      (s.oclkHigh = true ↔ 6 ≤ s.mix.oclk)) ∧
    (s.line.tx = none → s.lineDominant = false) ∧
    ∀ x, s.line.tx = some x → (s.lineDominant = true ↔ x.bits[x.sent]? = some false)

/-- Hardware reset, from any state, leaves every block at its reset values (R14, R31, R46, R65, R82, R108,
R137, R147, R159, R168). The whole state is that under reset, but for the waiting commands and the model's
own counters of cycle starts and of sets (log entries 16 and 22); the straps before sampling, the last PDM
level, the phase of OCLK and the physical slot that fills in it are log entries 4, 5, 6 and 39. -/
def Obligations.HardwareResetSetsResetValues : Prop :=
  ∀ s : State, ∃ t, exec .hardwareReset s = .next t ∧
    t = { State.reset with
      mix := { State.reset.mix with sets := t.mix.sets }
      cycleStarts := s.cycleStarts, pending := s.pending } ∧ t.inReset = true ∧
    (∀ i : Fin 4, t.capture.slots[i].validity = .cut ∧ t.capture.slots[i].clip = false ∧
      t.capture.slots[i].read = silence) ∧
    t.capture.transition = false ∧ t.capture.history = [] ∧ t.capture.dcIn = 0 ∧ t.capture.dcOut = 0 ∧
    t.capture.mic = .ok ∧ t.capture.stuckCount = 0 ∧ t.capture.goodCount = 0 ∧
    t.capture.firstFrame = true ∧ t.arbiter.write = false ∧ t.arbiter.reads = [] ∧
    t.detector =
      { state := .silent, score := 0, outState := .silent, outScore := 0, floor := 120
        rise := 0, hist1 := false, hist2 := false, hist3 := false, hangover := 0, processing := none
        pending := none } ∧
    t.line.tx = none ∧ t.line.stopped = [] ∧ t.line.candidate = none ∧ t.line.beatQuiet = 0 ∧
    t.line.slotFree = 0 ∧ (∀ a : Addr, t.line.reportSpans[a] = false) ∧
    (∀ l : Lane, t.line.laneSpans[l] = false) ∧
    t.beat.sync = .listen ∧ t.beat.timer = 0 ∧ t.beat.cycle = 0 ∧ t.beat.holder = none ∧ t.beat.rank = none ∧
    t.beat.candidate = false ∧ t.beat.holderCond = false ∧ t.beat.barred = 0 ∧ t.beat.failures = 0 ∧
    t.beat.obsCount = 0 ∧ t.beat.entCount = 0 ∧ t.beat.firstBeat = false ∧ t.beat.request = .idle ∧
    t.beat.coldStart = none ∧ t.beat.waitOpen = false ∧ t.beat.takerAt = none ∧
    (∀ a : Addr, t.census.peers[a] = { presence := .absent, good := 0, miss := 0 } ∧
      t.census.entries[a] = none) ∧
    t.census.readback = none ∧ t.census.ownCollisions = 0 ∧ t.census.conflictWait = 0 ∧
    t.census.reportTx = none ∧
    (∀ l : Lane, t.lanes.table[l] = .free ∧ t.lanes.slotCopy[l] = .free) ∧
    t.lanes.request = .none ∧ t.lanes.waitAge = 0 ∧ t.lanes.releasePending = none ∧
    t.lanes.idleHold = false ∧ t.lanes.digest = t.lanes.table.digest ∧ t.lanes.divergence = 0 ∧
    t.lanes.laneCollisions = 0 ∧ t.lanes.closingCycle = false ∧ t.lanes.cutInCycle = false ∧
    t.audio.tx = none ∧ t.audio.unlisted = false ∧
    (∀ l : Lane, t.audio.lanes[l].state = .muted ∧ t.audio.lanes[l].faded = true ∧
      t.audio.lanes[l].lastGood = silence ∧ t.audio.lanes[l].received = none ∧
      t.audio.lanes[l].contribution = none) ∧
    t.mix.playing = Buffer.zeros ∧ t.mix.next = Buffer.zeros ∧ t.mix.nextStatus = .empty ∧
    t.mix.formingNext = none ∧ t.mix.formingPlaying = none ∧ t.mix.formingLeft = [] ∧
    t.mix.closed = false ∧ t.mix.refAge = 0 ∧ t.mix.frame = none ∧
    t.keys.keyA = { pressed := false, count := 0 } ∧ t.keys.keyB = { pressed := false, count := 0 } ∧
    t.keys.muteLatch = false ∧ t.keys.blinkCount = 0 ∧ t.keys.linkPhase = false ∧
    t.status.queue = [] ∧ t.status.tx = none ∧ t.status.overrun = false ∧ t.status.summaryCount = 0 ∧
    t.status.bitClock = 0 ∧ t.status.nextFree = 10

/-- Reset release samples the straps and the keys, forms the fingerprint, starts the cold-start timer and
queues the STARTED record with cycle number 0 (R65, R149, R151 to R153, R168). Everything else keeps its
reset value. -/
def Obligations.ResetReleaseStartsTheNode : Prop :=
  ∀ (p : StrapPins) (k : KeyPins) (s : State), s.inReset = true → s.HeldInReset →
    ∃ t, exec (.resetRelease p k) s = .next t ∧ t.inReset = false ∧
      t.keys.straps.addr.val = p.addr.toNat ∧
      t.keys.straps.role = (#v[Role.auto, .keyed, .chair, .listen] : Vector Role 4)[p.role.toFin] ∧
      t.keys.straps.lanes.val = p.lanes.toNat ∧
      t.keys.straps.policy = (if p.policy then .loudest else .firstOn) ∧
      t.keys.straps.lastOn = p.lastOn ∧ t.keys.straps.sens.val = p.sens.toNat ∧
      t.keys.straps.hang.val = p.hang.toNat ∧ t.keys.straps.gain.val = p.gain.toNat ∧
      t.keys.fingerprint.toNat = 32 + 4 * p.lanes.toNat + 2 * p.policy.toNat + p.lastOn.toNat ∧
      t.keys.keyA = { pressed := false, count := (!k.keyA).toNat } ∧
      t.keys.keyB = { pressed := false, count := (!k.keyB).toNat } ∧
      t.beat.coldStart = some (36864 + 3072 * p.addr.toNat) ∧
      t.status.queue = [{ cycle := 0, body := .started t.keys.straps t.keys.fingerprint }] ∧
      { t with
        inReset := true
        keys := { t.keys with
          straps := s.keys.straps, fingerprint := s.keys.fingerprint
          keyA := s.keys.keyA, keyB := s.keys.keyB }
        beat := { t.beat with coldStart := none }
        status := { t.status with queue := [] } } = s

/-! ## Capture -/

/-- A PDM_DATA sample goes to decimation and to stuck detection while PDM_CLK runs, and else nothing is
sampled (R1, R8, R13). An output instant (R2) takes one decimated sample through DC removal (R4) and gain
(R5) into its position of the filling slot, and raises the write of it at the bank arbiter (R10). The
decimated sample is a free value, of a filter with the passband and the delay bound of R3 as log entry 1 reads
them, wherever R2 lets the output instants fall. A listener's chain does not run (R13). -/
def Obligations.SamplesReachTheFillingSlot : Prop :=
  PassesTheVoiceBand Config.decimation ∧
  (∀ (level : Bool) (s : State),
    (s.inReset = true ∨ s.role = .listen → exec (.pdmDataSample level) s = .next s) ∧
    (s.inReset = false → s.role ≠ .listen → ∃ t, exec (.pdmDataSample level) s = .next t ∧
      t.capture.history = .bit level :: s.capture.history ∧ t.capture.lastPdm = level ∧
      (t.capture.transition = true ↔ s.capture.transition = true ∨ level ≠ s.capture.lastPdm) ∧
      { t with capture := { t.capture with
          history := s.capture.history, lastPdm := s.capture.lastPdm
          transition := s.capture.transition } } = s)) ∧
  ∀ (k : Fin 63) (s : State), s.inReset = false →
    let u := s.elapseTo (192 * (k.val + 1))
    (s.role = .listen → exec (.outputInstant k) s = .next u) ∧
    (s.role ≠ .listen → ∃ (t : State) (v p : Int), exec (.outputInstant k) s = .next t ∧
      { t with capture := s.capture, arbiter := u.arbiter } = u ∧
      t.arbiter = { u.arbiter with write := true } ∧
      { t.capture with
        history := s.capture.history, dcIn := s.capture.dcIn, dcOut := s.capture.dcOut
        slots := s.capture.slots } = s.capture ∧
      t.capture.history = .instant :: s.capture.history ∧
      t.capture.dcIn = Config.decimation (.instant :: s.capture.history) ∧
      IsRounded ((t.capture.dcIn.toInt - s.capture.dcIn.toInt) * 32768 + 125 * s.capture.dcOut) 128
        t.capture.dcOut ∧
      IsRounded t.capture.dcOut 256 v ∧ p = v * 2 ^ s.keys.straps.gain.val ∧
      (∀ i : Fin 4, i ≠ s.capture.fill → t.capture.slots[i] = s.capture.slots[i]) ∧
      t.capture.slots[s.capture.fill].validity = s.capture.slots[s.capture.fill].validity ∧
      (∀ j : Fin 64, j.val ≠ k.val → t.capture.slots[s.capture.fill].samples[j] =
        s.capture.slots[s.capture.fill].samples[j]) ∧
      IsSaturated p (t.capture.slots[s.capture.fill].samples[k.castSucc]) ∧
      (t.capture.slots[s.capture.fill].clip = true ↔
        s.capture.slots[s.capture.fill].clip = true ∨ 32767 < p ∨ p < -32768))

/-- A frame completion fixes the verdict of the filling frame, clears the clip flag of an INVALID one, moves
the ages on and opens the slot of age 3 for filling (R7, R8, R9, R13). The stages before the bank carry on: the
decimation history, the DC-removal filter and the last PDM_DATA bit (R3, R4, R7, R13). The completed frame is
offered to the detector, which starts to process it, or holds the completion as pending, in place of one that
waits, or takes none, as a listener (R16, R18, R30). That a processing holds the samples its slot had at its
start is log entry 18. -/
def Obligations.FrameCompletionJudgesAndAges : Prop :=
  ∀ (straps : Straps) (displacement : Option Int) (c : Capture) (detector : Detector),
    let d := c.complete straps displacement
    let offered := detector.offer straps.role d.1 d.2
    let jump := ∃ x : Int, displacement = some x ∧ (64 < x ∨ x < -64)
    (jump ∨ c.firstFrame = true → d.2.validity = .cut) ∧
    (¬ jump → c.firstFrame = false → (straps.role = .listen ∨ c.transition = false) →
      d.2.validity = .stuck) ∧
    (¬ jump → c.firstFrame = false → straps.role ≠ .listen → c.transition = true →
      d.2.validity = .valid) ∧
    (d.1.ofAge 1).validity = d.2.validity ∧ (d.1.ofAge 1).clip = d.2.clip ∧
    (d.2.validity ≠ .valid → d.2.clip = false ∧ (d.1.ofAge 1).read = silence) ∧
    (d.2.validity = .valid →
      (d.1.ofAge 1).read = (c.takeSample straps.gain 63).slots[c.fill].samples ∧
      d.2.clip = (c.takeSample straps.gain 63).slots[c.fill].clip) ∧
    d.1.ofAge 2 = c.ofAge 1 ∧ d.1.ofAge 3 = c.ofAge 2 ∧
    (d.1.ofAge 0).validity = .filling ∧ (d.1.ofAge 0).clip = false ∧
    d.1.transition = false ∧ d.1.firstFrame = false ∧ d.1.mic = d.2.mic ∧
    d.1.lastPdm = c.lastPdm ∧
    (straps.role = .listen →
      d.1.history = c.history ∧ d.1.dcIn = c.dcIn ∧ d.1.dcOut = c.dcOut ∧ offered = detector) ∧
    (straps.role ≠ .listen →
      d.1.history = .instant :: c.history ∧ d.1.dcIn = Config.decimation (.instant :: c.history) ∧
      IsRounded ((d.1.dcIn.toInt - c.dcIn.toInt) * 32768 + 125 * c.dcOut) 128 d.1.dcOut ∧
      (detector.processing = none → offered = { detector with
        processing := some
          { samples := (d.1.ofAge 1).read, validity := d.2.validity, mic := d.2.mic } }) ∧
      (detector.processing ≠ none → offered = { detector with pending := some d.2 }))

/-- The microphone state and its two counters at a frame completion follow Table 1-3, and each change raises
a MIC record (R12). A listener's stay as they are (R13). -/
def Obligations.MicrophoneStateFollowsTable : Prop :=
  ∀ (straps : Straps) (displacement : Option Int) (c : Capture),
    let d := c.complete straps displacement
    let e := d.1
    (straps.role = .listen →
      e.mic = c.mic ∧ e.stuckCount = c.stuckCount ∧ e.goodCount = c.goodCount) ∧
    (straps.role ≠ .listen →
    (c.mic = .ok → d.2.validity = .stuck → c.stuckCount = 0 →
      e.mic = .ok ∧ e.stuckCount = 1 ∧ e.goodCount = c.goodCount) ∧
    (c.mic = .ok → d.2.validity = .stuck → c.stuckCount = 1 →
      e.mic = .fault ∧ e.stuckCount = 0 ∧ e.goodCount = 0) ∧
    (c.mic = .ok → d.2.validity = .valid →
      e.mic = .ok ∧ e.stuckCount = 0 ∧ e.goodCount = c.goodCount) ∧
    (d.2.validity = .cut →
      e.mic = c.mic ∧ e.stuckCount = c.stuckCount ∧ e.goodCount = c.goodCount) ∧
    (c.mic = .fault → d.2.validity = .valid → c.goodCount < 3 →
      e.mic = .fault ∧ e.stuckCount = c.stuckCount ∧ e.goodCount = c.goodCount + 1) ∧
    (c.mic = .fault → d.2.validity = .valid → c.goodCount = 3 →
      e.mic = .ok ∧ e.stuckCount = 0 ∧ e.goodCount = 0) ∧
    (c.mic = .fault → d.2.validity = .stuck →
      e.mic = .fault ∧ e.stuckCount = c.stuckCount ∧ e.goodCount = 0)) ∧
    (∀ m, .mic m ∈ captureRecords c.mic d.2 ↔ m = e.mic ∧ e.mic ≠ c.mic)

/-- Each access opportunity, four in a bit time, goes to the capture writer's request, else to the read
raised first. So a frame completion's detector read, of 64 requests in sample order, is through within 65
opportunities, 17 bit times, and a transmitter's read waits no longer than 17 (R10). That a reader's
requests are raised as they are, and which reader goes first at one opportunity, is log entry 20. -/
def Obligations.ArbiterGrantsWithinTheBounds : Prop :=
  (∀ (n : Nat) (a : Arbiter),
    let left := grantAll (4 * n) (a.write, a.reads)
    a.elapse n = { write := left.1, reads := left.2.map fun r => { r with due := r.due - n } }) ∧
  (∀ (first : Bool) (slot : Fin 4) (a : Arbiter), (∀ r ∈ a.reads, r.reader = .transmitter) →
    let b := a.endTransmitter.raiseWrite.raiseDetector first slot
    b.write = true ∧ b.reads.length = 64 ∧
    (∀ i : Fin 64, b.reads[i.val]? =
      some { reader := .detector, slot := slot, position := i, due := 0 }) ∧
    (grantAll 65 (b.write, b.reads)).2 = [] ∧ b.detectorWait = 17) ∧
  ∀ (first : Bool) (slot : Fin 4) (a : Arbiter) (n : Nat),
    (∀ r ∈ a.reads, r.reader = .detector → r.due ≤ 0) →
    (a.reads.filter fun r => r.reader = .detector).length ≤ 64 →
    ∀ r ∈ ((a.endTransmitter.raiseTransmitter first slot).elapse n).reads, r.reader = .transmitter →
      -17 < r.due

/-! ## Speech detector -/

/-- The level of a frame is its mean-square power in half decibels, rounded with a half upward and clamped
to 0 to 255 (R19). -/
def Obligations.LevelIsRoundedLogarithm : Prop :=
  ∀ f : Frame,
    let sum : Int := ∑ i : Fin 64, f[i].toInt * f[i].toInt
    (sum = 0 → level f = 0) ∧
    (sum ≠ 0 → (level f : Int) =
      max 0 (min 255 ⌊255 + 20 * Real.logb 10 ((sum : ℝ) / 64 / 1073741824) + 1 / 2⌋))

/-- The zero-crossing count is the number of positions 1 to 63 at which the sign changes (R20). -/
def Obligations.ZeroCrossingsCountSignChanges : Prop :=
  ∀ f : Frame,
    zeroCrossings f = (Finset.univ.filter fun i : Fin 63 =>
      decide (f[i.succ].toInt < 0) ≠ decide (f[i.castSucc].toInt < 0)).card ∧
    zeroCrossings f ≤ 63

/-- A frame processed under MIC_OK: headroom, qualification, state, hangover, score, history, noise floor
and publication (R16, R17, R21 to R28). The publication follows the last read (log entry 20). The pending
completion is taken next; its frame is the one of age 1 then (R18, log entry 18). -/
def Obligations.DetectorJudgesOneFrame : Prop :=
  ∀ (s : State) (p : Processing), s.inReset = false → s.detector.processing = some p → p.mic = .ok →
    let u := s.elapse s.arbiter.detectorWait
    ∃ t, exec .detectorPublication s = .next t ∧
      let d := s.detector
      let e := t.detector
      let sens := s.keys.straps.sens
      let tHigh := (#v[30, 24, 18, 12] : Vector Nat 4)[sens]
      let tLow := (#v[20, 16, 12, 8] : Vector Nat 4)[sens]
      let zHigh := (#v[20, 18, 16, 14] : Vector Nat 4)[sens]
      let zMax := (#v[48, 48, 50, 52] : Vector Nat 4)[sens]
      let length := (#v[25, 50, 100, 200] : Vector Nat 4)[s.keys.straps.hang]
      let l := level p.samples
      let z := zeroCrossings p.samples
      let h := if p.validity = .valid then l - d.floor else 0
      let q := p.validity = .valid ∧ z ≤ zMax ∧ (tHigh ≤ h ∨ (tLow ≤ h ∧ zHigh ≤ z))
      (d.state = .silent → (q → e.state = .onset) ∧ (¬ q → e.state = .silent)) ∧
      (d.state = .onset →
        ((q ∧ (d.hist1 = true ∨ d.hist2 = true)) ∨ (d.hist1 = true ∧ d.hist2 = true) →
          e.state = .speech) ∧
        (¬ q → d.hist1 = false → e.state = .silent) ∧
        (q → d.hist1 = false → d.hist2 = false → e.state = .onset) ∧
        (¬ q → d.hist1 = true → d.hist2 = false → e.state = .onset)) ∧
      (d.state = .speech → (q → e.state = .speech ∧ e.hangover = 0) ∧
        (¬ q → e.state = .hangover ∧ e.hangover = length)) ∧
      (d.state = .hangover → (q → e.state = .speech ∧ e.hangover = 0) ∧
        (¬ q → 1 < d.hangover → e.state = .hangover ∧ e.hangover = d.hangover - 1) ∧
        (¬ q → d.hangover ≤ 1 → e.state = .silent ∧ e.hangover = 0)) ∧
      (e.state ≠ .hangover → e.hangover = 0) ∧
      (e.state = .silent → e.score = 0 ∧ e.hist1 = false ∧ e.hist2 = false ∧ e.hist3 = false) ∧
      (e.state ≠ .silent → e.score = max h (d.score - 2) ∧ (e.hist1 = true ↔ q) ∧
        e.hist2 = d.hist1 ∧ e.hist3 = d.hist2) ∧
      (p.validity ≠ .valid → e.floor = d.floor ∧ e.rise = d.rise) ∧
      (p.validity = .valid → l < d.floor → e.floor = max l (d.floor - 4) ∧ e.rise = 0) ∧
      (p.validity = .valid → d.floor ≤ l → d.state ≠ .silent → e.floor = d.floor ∧ e.rise = 0) ∧
      (p.validity = .valid → d.floor ≤ l → d.state = .silent → d.rise ≠ 7 →
        e.floor = d.floor ∧ e.rise = d.rise + 1) ∧
      (p.validity = .valid → d.floor ≤ l → d.state = .silent → d.rise = 7 →
        e.floor = min 255 (d.floor + 1) ∧ e.rise = 0) ∧
      e.outState = e.state ∧ e.outScore = e.score ∧ e.pending = none ∧
      (d.pending = none → e.processing = none ∧ t.arbiter = u.arbiter) ∧
      (∀ done, d.pending = some done → e.processing =
        some
          { samples := (s.capture.ofAge 1).read, validity := (s.capture.ofAge 1).validity
            mic := done.mic } ∧
        t.arbiter = { u.arbiter with
          reads := insertReads (Config.detectorFirst s.cycleStarts)
            (detectorReads (s.capture.fill - 1)) u.arbiter.reads }) ∧
      t.lanes = { s.lanes with
        idleHold := s.lanes.idleHold && decide (e.state = .silent) } ∧
      { t with detector := s.detector, lanes := s.lanes, arbiter := u.arbiter } = u

/-- A frame processed under MIC_FAULT forces the detector to SILENT and freezes the noise floor (R29). The time
to the last read passes before the publication (log entries 11 and 20), and the pending completion is taken
then (R18, log entry 18). Without a processing there is nothing to publish. -/
def Obligations.DetectorIsForcedSilentByFault : Prop :=
  ∀ s : State, s.inReset = false →
    (s.detector.processing = none → exec .detectorPublication s = .next s) ∧
    ∀ p : Processing, s.detector.processing = some p → p.mic = .fault →
      let u := s.elapse s.arbiter.detectorWait
      ∃ t, exec .detectorPublication s = .next t ∧
        t.detector = { s.detector with
          state := .silent, score := 0, outState := .silent, outScore := 0
          hist1 := false, hist2 := false, hist3 := false, hangover := 0
          processing := t.detector.processing, pending := none } ∧
        (s.detector.pending = none → t.detector.processing = none ∧ t.arbiter = u.arbiter) ∧
        (∀ done, s.detector.pending = some done → t.detector.processing =
          some
            { samples := (s.capture.ofAge 1).read, validity := (s.capture.ofAge 1).validity
              mic := done.mic } ∧
          t.arbiter = { u.arbiter with
            reads := insertReads (Config.detectorFirst s.cycleStarts)
              (detectorReads (s.capture.fill - 1)) u.arbiter.reads }) ∧
        t.lanes = s.lanes ∧
        { t with detector := s.detector, arbiter := u.arbiter } = u

/-! ## The line and its frames -/

/-- A start edge, a dominant reading after four recessive ones since the decoder's last reception (R36,
R46), makes a candidate while none is read and no own beat is sent (R39; that no edge is taken during an own
beat is log entry 31), and changes nothing else. A candidate that is no good beat is dropped: after eight
bits when they are not the beat pattern, after 32 when the CRC-8 fails (R39, R40). Without a candidate there
is nothing to drop, and bits that pass both tests are not dropped. Bits that fail a test are dropped too
when they come as a delivery (log entry 13). -/
def Obligations.CandidateIsTakenAndDropped : Prop :=
  (∀ (position recessive : Nat) (s : State), s.inReset = false →
    let u := s.elapseTo position
    let sending := ∃ kind cycle age, s.beat.request = .sending kind cycle age
    let edge := 4 ≤ recessive ∧ 4 ≤ s.line.beatQuiet + (position - s.beat.timer)
    (edge → s.line.candidate = none → ¬ sending →
      exec (.beatCandidateFound position recessive) s =
        .next { u with line := { u.line with candidate := some 0 } }) ∧
    (¬ edge ∨ s.line.candidate ≠ none ∨ sending →
      exec (.beatCandidateFound position recessive) s = .next u)) ∧
  ∀ (word : BitVec 32) (keys : KeyPins) (s : State), s.inReset = false →
    (s.line.candidate = none → exec (.beatCandidateDropped word) s = .next s ∧
      exec (.goodBeatDelivered word keys) s = .next s) ∧
    ∀ age, s.line.candidate = some age →
      let u8 := s.elapse (8 - age)
      let u32 := s.elapse (32 - age)
      ((natBits 32 word.toNat).take 8 ≠ beatPattern → exec (.beatCandidateDropped word) s =
        .next { u8 with line := { u8.line with candidate := none, beatQuiet := 0 } }) ∧
      ((natBits 32 word.toNat).take 8 = beatPattern →
        decodeBeat (natBits 32 word.toNat) = none → exec (.beatCandidateDropped word) s =
          .next { u32 with line := { u32.line with candidate := none, beatQuiet := 0 } }) ∧
      (decodeBeat (natBits 32 word.toNat) ≠ none → exec (.beatCandidateDropped word) s = .next s) ∧
      (decodeBeat (natBits 32 word.toNat) = none ∨
          (∃ kind cycle a, s.beat.request = .sending kind cycle a) →
        exec (.goodBeatDelivered word keys) s =
          .next { u32 with line := { u32.line with candidate := none, beatQuiet := 0 } })

/-- The bits that decode as a beat, a report or a lane frame are those a sender of it drives, for every
cycle number, every report and every lane frame (R40 to R42). -/
def Obligations.FramesDecodeExactlyTheirEncodings : Prop :=
  (∀ (bits : List Bool) (c : BitVec 16), decodeBeat bits = some c ↔ bits = encodeBeat c) ∧
  (∀ (bits : List Bool) (r : Report), decodeReport bits = some r ↔ bits = encodeReport r) ∧
  ∀ (bits : List Bool) (f : LaneFrame), decodeLane bits = some f ↔ bits = encodeLane f

/-- Whatever the command, the driver is released, goes on with the frame it was sending or stops it, or
begins one that R35 admits: a founding beat in LISTEN, a holder or taker beat in LOCKED, the own report in
ENTERING or LOCKED, the own lane frame in LOCKED in the lane that the slot copy lists under the own address.
-/
def Obligations.DriverBeginsOnlyAdmittedFrames : Prop :=
  ∀ (c : Instr) (s t : State), exec c s = .next t →
    t.line.tx = none ∨
    (∃ x y : LineTx, s.line.tx = some x ∧ t.line.tx = some y ∧ y.kind = x.kind ∧ y.bits <+: x.bits ∧
      x.sent ≤ y.sent) ∨
    ∃ y : LineTx, t.line.tx = some y ∧ s.MayDrive y

/-! ## Beat synchronisation -/

/-- In LISTEN the cycle timer runs free: at its expiry the next cycle starts there, with the next cycle
number (R48, R49); what a cycle start does to the blocks rests on log entries 2, 20, 22, 23, 24, 34, 35 and 42. In
the other states an expiry starts no cycle, and the wait opens at expiry − 8, which there is none of in
LISTEN (R49, R50). -/
def Obligations.TimerExpiryAndBeatWait : Prop :=
  (∀ (keys : KeyPins) (s : State), s.inReset = false →
    (s.beat.sync = .listen →
      let u := s.elapseTo 12288
      ∃ t, exec (.cycleTimerExpiry keys) s = .next t ∧
        u.CycleBegun
          { age := u.beat.timer - 12288, cycle := s.beat.cycle + 1, displacement := none, own := false
            sync := .listen, records := [], keys := keys } t) ∧
    (s.beat.sync ≠ .listen → exec (.cycleTimerExpiry keys) s = .next s)) ∧
  ∀ s : State, s.inReset = false →
    let u := s.elapseTo 12280
    (s.beat.sync ≠ .listen →
      exec .beatWaitOpen s = .next { u with beat := { u.beat with waitOpen := true } }) ∧
    (s.beat.sync = .listen → exec .beatWaitOpen s = .next s)

/-- A good beat in LISTEN makes the node ALIGNING with a realigning cycle start at the beat's start instant
and the beat's cycle number (R49). A founding beat that waited is not sent (R53). What a cycle start does to
the blocks rests on log entries 2, 20, 22, 23, 24, 34, 35 and 42. -/
def Obligations.BeatHeardInListenAligns : Prop :=
  ∀ (word : BitVec 32) (keys : KeyPins) (s : State) (candidate : Nat) (c : BitVec 16),
    s.inReset = false → s.beat.sync = .listen → s.line.candidate = some candidate →
    decodeBeat (natBits 32 word.toNat) = some c →
    (∀ kind cycle a, s.beat.request ≠ .sending kind cycle a) →
    let u := s.elapse (32 - candidate)
    let age := max candidate 32
    ∃ t, exec (.goodBeatDelivered word keys) s = .next t ∧
      ({ u with
        line := { u.line with candidate := none, beatQuiet := 0 }
        beat := { u.beat with
          coldStart := none, firstBeat := true, failures := 0, request := .idle } } : State).CycleBegun
        { age := age, cycle := c, displacement := some (12288 - ((u.beat.timer : Int) - age))
          own := false, sync := .aligning, records := [.sync .aligning .beatHeard s.beat.holder]
          keys := keys } t

/-- A good beat that starts in the open wait is a cycle start at its start instant with its number; in
ALIGNING it confirms when it starts within expiry ± 5 after a first beat, and else becomes the first beat
(R50, R54). The order of a CYCLE_JUMP and a CONFIRMED record is free (log entry 3). What a cycle start does
to the blocks rests on log entries 2, 20, 22, 23, 24, 34, 35 and 42. -/
def Obligations.BeatInTheWaitIsAccepted : Prop :=
  ∀ (word : BitVec 32) (keys : KeyPins) (s : State) (candidate : Nat) (c : BitVec 16),
    s.inReset = false → s.beat.sync ≠ .listen → s.beat.waitOpen = true →
    s.line.candidate = some candidate → decodeBeat (natBits 32 word.toNat) = some c →
    (∀ kind cycle a, s.beat.request ≠ .sending kind cycle a) →
    let u := s.elapse (32 - candidate)
    let age := max candidate 32
    let start : Int := (u.beat.timer : Int) - age
    12280 ≤ start →
    let confirmed := s.beat.sync = .aligning ∧ s.beat.firstBeat = true ∧ 12283 ≤ start ∧ start ≤ 12293
    ∃ (t : State) (sync : SyncState) (obs : Nat) (jump change records : List RecordBody),
      (confirmed → sync = .observing ∧ obs = 0 ∧
        change = [.sync .observing .confirmed s.beat.holder]) ∧
      (¬ confirmed → sync = s.beat.sync ∧ obs = s.beat.obsCount ∧ change = []) ∧
      ((jump = [] ∧ c = s.beat.cycle + 1 ∧ records = change) ∨
        (c ≠ s.beat.cycle + 1 ∧
          ((jump = [.sync s.beat.sync .cycleJump s.beat.holder] ∧ records = jump ++ change) ∨
           (jump = [.sync sync .cycleJump s.beat.holder] ∧ records = change ++ jump)))) ∧
      exec (.goodBeatDelivered word keys) s = .next t ∧
      ({ u with
        line := { u.line with candidate := none, beatQuiet := 0 }
        beat := { u.beat with
          failures := 0, obsCount := obs
          firstBeat := s.beat.firstBeat || decide (s.beat.sync = .aligning) } } : State).CycleBegun
        { age := age, cycle := c, displacement := none, own := false, sync := sync
          records := records, keys := keys } t

/-- A good beat outside the wait is adopted as a realigning cycle start, its displacement counted from the
expiry of the running cycle (R51); in ALIGNING it becomes the first beat (R54). A beat that started before
the open wait is outside it (log entry 28). What a cycle start does to the blocks rests on log entries 2,
20, 22, 23, 24, 34, 35 and 42. -/
def Obligations.BeatOutsideTheWaitIsAdopted : Prop :=
  ∀ (word : BitVec 32) (keys : KeyPins) (s : State) (candidate : Nat) (c : BitVec 16),
    s.inReset = false → s.beat.sync ≠ .listen → s.line.candidate = some candidate →
    decodeBeat (natBits 32 word.toNat) = some c →
    (∀ kind cycle a, s.beat.request ≠ .sending kind cycle a) →
    let u := s.elapse (32 - candidate)
    let age := max candidate 32
    let start : Int := (u.beat.timer : Int) - age
    (s.beat.waitOpen = false ∨ start < 12280) →
    ∃ t, exec (.goodBeatDelivered word keys) s = .next t ∧
      ({ u with
        line := { u.line with candidate := none, beatQuiet := 0 }
        beat := { u.beat with
          failures := 0
          firstBeat := s.beat.firstBeat || decide (s.beat.sync = .aligning) } } : State).CycleBegun
        { age := age, cycle := c, displacement := some (12288 - start), own := false
          sync := s.beat.sync
          records := if c = s.beat.cycle + 1 then [] else [.sync s.beat.sync .cycleJump s.beat.holder]
          keys := keys } t

/-- The cold-start expiry in LISTEN sends the founding beat with cycle number 0 at once, or makes it wait
while a candidate is read that started before; a waiting beat starts one bit time after its candidate was
dropped, if its sync state still admits it (R35, R53, R60, R61). Without a running timer in LISTEN, or a
waiting beat and a free decoder, the command does nothing. A candidate found in the same bit time is dropped
(log entry 31). -/
def Obligations.FoundingAndDeferredBeatsStart : Prop :=
  (∀ (s : State) (left : Nat), s.inReset = false → s.beat.sync = .listen →
    s.beat.coldStart = some left →
    let u := s.elapse left
    ((∃ age, u.line.candidate = some age ∧ 0 < age) → exec .coldStartExpiry s =
      .next { u with beat := { u.beat with coldStart := none, request := .waiting .founding } }) ∧
    ((∀ age, u.line.candidate = some age → age = 0) → exec .coldStartExpiry s = .next { u with
      beat := { u.beat with coldStart := none, request := .sending .founding 0 0 }
      line := { u.line with
        candidate := none, tx := some { kind := .beat, bits := encodeBeat 0, sent := 0 } } })) ∧
  (∀ s : State, s.inReset = false →
    (s.beat.sync ≠ .listen ∨ s.beat.coldStart = none → exec .coldStartExpiry s = .next s) ∧
    ((∀ kind, s.beat.request ≠ .waiting kind) ∨ s.line.candidate ≠ none →
      exec .deferredBeatStart s = .next s)) ∧
  (∀ (s : State) (kind : BeatKind), s.inReset = false → s.beat.request = .waiting kind →
    s.line.candidate = none →
    let u := s.elapse 1
    let cycle := if kind = .founding then 0 else s.beat.cycle + 1
    let state := if kind = .founding then SyncState.listen else .locked
    (s.beat.sync = state → exec .deferredBeatStart s = .next { u with
      beat := { u.beat with request := .sending kind cycle 0 }
      line := { u.line with tx := some { kind := .beat, bits := encodeBeat cycle, sent := 0 } } }) ∧
    (s.beat.sync ≠ state → exec .deferredBeatStart s =
      .next { u with beat := { u.beat with request := .idle } }))

/-- The holder requests its beat at the expiry; a taker fixes its instant at expiry + 8 and requests its
beat at expiry + 16 + 32 × rank. The beat carries the expected cycle number; it starts unless a candidate is
being read that started before, and then waits (R60, R61). A candidate found in the same bit time is dropped
(log entry 31). While a request is in progress the holder raises none (log entry 44). -/
def Obligations.HolderAndTakerSendTheBeat : Prop :=
  ∀ s : State, s.inReset = false → s.beat.sync = .locked →
    (s.beat.barred = 0 → s.beat.holder = some s.own → s.beat.request = .idle →
      let u := s.elapseTo 12288
      ((∃ age, u.line.candidate = some age ∧ 0 < age) → exec .holderBeatRequest s =
        .next { u with beat := { u.beat with request := .waiting .holder } }) ∧
      ((∀ age, u.line.candidate = some age → age = 0) → exec .holderBeatRequest s = .next { u with
        beat := { u.beat with request := .sending .holder (s.beat.cycle + 1) 0 }
        line := { u.line with
          candidate := none
          tx := some { kind := .beat, bits := encodeBeat (s.beat.cycle + 1), sent := 0 } } })) ∧
    (s.beat.holder ≠ some s.own ∨ s.beat.barred ≠ 0 ∨ s.beat.request ≠ .idle →
      exec .holderBeatRequest s = .next s) ∧
    (∀ r, s.beat.rank = some r → s.beat.barred = 0 → s.beat.waitOpen = true →
      let u := s.elapseTo 12296
      exec .takerDecision s =
        .next { u with beat := { u.beat with takerAt := some (12304 + 32 * r.val) } }) ∧
    (s.beat.rank = none ∨ s.beat.barred ≠ 0 ∨ s.beat.waitOpen = false →
      exec .takerDecision s = .next s) ∧
    (∀ p, s.beat.takerAt = some p →
      let u := s.elapseTo p
      ((∃ age, u.line.candidate = some age ∧ 0 < age) → exec .takerBeatStart s =
        .next { u with beat := { u.beat with takerAt := none, request := .waiting .taker } }) ∧
      ((∀ age, u.line.candidate = some age → age = 0) → exec .takerBeatStart s = .next { u with
        beat := { u.beat with
          takerAt := none, request := .sending .taker (s.beat.cycle + 1) 0 }
        line := { u.line with
          candidate := none
          tx := some { kind := .beat, bits := encodeBeat (s.beat.cycle + 1), sent := 0 } } })) ∧
    (s.beat.takerAt = none → exec .takerBeatStart s = .next s)

/-- A founding beat that reads back clean makes the node LOCKED as holder, with a realigning cycle start of
cycle 0 at its start instant (R53). A holder or taker beat that reads back clean is the cycle start of its
boundary while the wait is open (R50, R60, R61); once the wait is closed it only ends (log entry 10).
The own beat counts as a reception of the decoder (log entry 31). What a
cycle start does to the blocks rests on log entries 2, 20, 22, 23, 24, 34, 35 and 42. -/
def Obligations.CleanBeatStartsItsCycle : Prop :=
  ∀ (read : BitVec 32) (keys : KeyPins) (s : State) (kind : BeatKind) (cycle : BitVec 16) (sent : Nat),
    s.inReset = false → s.beat.request = .sending kind cycle sent →
    natBits 32 read.toNat = encodeBeat cycle →
    let u := s.elapse (32 - sent)
    let age := max sent 32
    let v : State := { u with
      line := { u.line with tx := u.line.tx.filter fun x => x.kind ≠ .beat, beatQuiet := 0 }
      beat := { u.beat with request := .idle, failures := 0 } }
    (kind = .founding → ∃ t, exec (.beatReadbackOutcome read keys) s = .next t ∧
      ({ v with
        beat := { v.beat with coldStart := none, holder := some s.own, rank := none }
        census := { v.census with ownCollisions := 0 } } : State).CycleBegun
        { age := age, cycle := 0, displacement := some (12288 - ((u.beat.timer : Int) - age))
          own := true, sync := .locked, records := [.sync .locked .founded (some s.own)]
          keys := keys } t) ∧
    (kind ≠ .founding → s.beat.waitOpen = true → ∃ t, exec (.beatReadbackOutcome read keys) s = .next t ∧
      v.CycleBegun
        { age := age, cycle := s.beat.cycle + 1, displacement := none, own := true
          sync := s.beat.sync, records := [], keys := keys } t) ∧
    (kind ≠ .founding → s.beat.waitOpen = false → exec (.beatReadbackOutcome read keys) s = .next v)

/-- A colliding own beat runs to its last bit and starts no cycle: a founding beat starts the cold-start
timer again (R52, R53), a holder or taker beat bars the node for 250 cycles and clears the candidate flag
(R62). The own beat counts as a reception of the decoder (log entry 31). While no own beat is sent, no outcome has an effect. -/
def Obligations.CollidingBeatBarsOrWaits : Prop :=
  (∀ (read : BitVec 32) (keys : KeyPins) (s : State), s.inReset = false →
    (∀ kind cycle sent, s.beat.request ≠ .sending kind cycle sent) →
    exec (.beatReadbackOutcome read keys) s = .next s) ∧
  ∀ (read : BitVec 32) (keys : KeyPins) (s : State) (kind : BeatKind) (cycle : BitVec 16) (sent : Nat),
    s.inReset = false → s.beat.request = .sending kind cycle sent →
    natBits 32 read.toNat ≠ encodeBeat cycle →
    let u := s.elapse (32 - sent)
    let v : State := { u with
      line := { u.line with tx := u.line.tx.filter fun x => x.kind ≠ .beat, beatQuiet := 0 } }
    (kind = .founding → exec (.beatReadbackOutcome read keys) s = .next { v with
      beat := { v.beat with
        request := .idle, coldStart := some (36864 + 3072 * s.own.val) } }) ∧
    (kind ≠ .founding → exec (.beatReadbackOutcome read keys) s = .next { v with
      beat := { v.beat with request := .idle, barred := 250, candidate := false } })

/-- A horizon with the wait open is a beat failure: a cycle start there with the expected cycle number. In
ALIGNING it clears the first-beat flag, and the third one returns to LISTEN (R54); in the other states the
first two only count (R63). In LISTEN, or with the wait closed, a horizon does nothing (R49, R50). What a
cycle start does to the blocks rests on log entries 2, 20, 22, 23, 24, 34, 35 and 42. -/
def Obligations.BeatFailureContinuesTheCycle : Prop :=
  (∀ (keys : KeyPins) (s : State), s.inReset = false →
    s.beat.sync = .listen ∨ s.beat.waitOpen = false → exec (.beatHorizon keys) s = .next s) ∧
  ∀ (keys : KeyPins) (s : State), s.inReset = false → s.beat.sync ≠ .listen → s.beat.waitOpen = true →
    let u := s.elapseTo 12816
    let cs : CycleStart :=
      { age := u.beat.timer - 12816, cycle := s.beat.cycle + 1, displacement := none, own := false
        sync := s.beat.sync, records := [], keys := keys }
    (s.beat.failures < 2 → s.beat.sync ≠ .aligning →
      ∃ t, exec (.beatHorizon keys) s = .next t ∧
        ({ u with beat := { u.beat with failures := s.beat.failures + 1 } } : State).CycleBegun cs t) ∧
    (s.beat.failures < 2 → s.beat.sync = .aligning →
      ∃ t, exec (.beatHorizon keys) s = .next t ∧
        ({ u with beat := { u.beat with
          failures := s.beat.failures + 1, firstBeat := false } } : State).CycleBegun cs t) ∧
    (s.beat.failures = 2 → s.beat.sync = .aligning →
      ∃ t, exec (.beatHorizon keys) s = .next t ∧
        ({ u with beat := { u.beat with
          failures := 0, firstBeat := false
          coldStart := some (36864 + 3072 * s.own.val) } } : State).CycleBegun
          { cs with sync := .listen, records := [.sync .listen .noBeat s.beat.holder] } t)

/-- The third beat failure outside ALIGNING is a rejoin with reason LOST at that cycle start (R63, R64): the
node leaves the line (R46, R82, R109, R138, R148), while capture, detector, keys, status port, the unlisted
flag, which a SUMMARY takes (R138, R167), and an output frame under way (R148) go on (R15, R32, R160). What is
being sent stops, a beat too, no outcome stands and no request is kept (log entry 37). The cycle start that
leaves a blinking state is not counted (R156). The order of the groups of records is log entry 2, when the
detector reads log entry 20, what becomes of an output frame log entry 23. -/
def Obligations.ThirdBeatFailureRejoins : Prop :=
  ∀ (keys : KeyPins) (s : State), s.inReset = false → s.beat.sync ≠ .listen → s.beat.sync ≠ .aligning →
    s.beat.waitOpen = true → s.beat.failures = 2 →
    let u := s.elapseTo 12816
    ∃ t, exec (.beatHorizon keys) s = .next t ∧ t.OffTheLine ∧
      t.beat.timer = u.beat.timer - 12816 ∧ t.beat.cycle = s.beat.cycle + 1 ∧
      t.capture = (s.capture.complete s.keys.straps none).1 ∧
      t.detector = s.detector.offer s.role t.capture (s.capture.complete s.keys.straps none).2 ∧
      KeysMoved s.beat.sync .listen keys s.keys t.keys ∧ u.ArbiterBegun t.capture t.arbiter ∧
      t.line.tx = (u.line.tx.map fun x => { x with bits := x.bits.take (x.sent + 1) }) ∧
      t.line.candidate = u.line.candidate ∧ t.line.beatQuiet = u.line.beatQuiet ∧
      t.audio.unlisted = (s.audio.unlisted && decide (s.status.summaryCount < 249)) ∧
      t.mix.refAge = 0 ∧ t.mix.oclk = u.mix.oclk ∧ t.mix.frame = u.mix.frame ∧
      (∃ capture, CaptureRaises s.capture.mic (s.capture.complete s.keys.straps none).2 capture ∧
        StatusMoved (s.beat.cycle + 1)
          ([.sync .listen .lost none] ++
            (match s.lanes.table.laneOf s.own with
              | some l => [.gate l false .lost]
              | none => []) ++
            (if s.lanes.request = .none then [] else [.request .none 0]))
          capture
          (if s.status.summaryCount < 249 then [] else
            [.summary (Vector.replicate 4 none) (Vector.replicate 16 false) none s.audio.unlisted])
          u.status t.status) ∧
      t.inReset = false ∧ t.pending = s.pending ∧ t.cycleStarts = s.cycleStarts + 1

/-- The sync state moves only along the changes that Table 4-3 lists, and to LISTEN by a rejoin or a reset
(R47), in every state in which a founding beat is under way in LISTEN only. -/
def Obligations.SyncStateMovesAlongTheTable : Prop :=
  ∀ (c : Instr) (s t : State), s.FoundingSound → exec c s = .next t →
    s.beat.sync.mayBecome t.beat.sync

/-! ## Reports and the census -/

/-- At the own report slot the request is evaluated by Table 6-3 and its wait age moves (R87, R88); in
ENTERING and LOCKED the own report is assembled from its owners (R66 to R68), entered in the census record
(R69) and driven (R35). A change of request raises a REQUEST record (R89). A change between CLAIM and
PRIORITY starts the wait age at 1 (log entry 27). -/
def Obligations.OwnReportSlotAssemblesTheReport : Prop :=
  ∀ s : State, s.inReset = false →
    let u := s.elapseTo (64 + 96 * s.own.val)
    let muted := s.keys.muteLatch = true ∨ (s.role = .auto ∧ s.keys.keyA.pressed = true)
    let speaking := s.detector.outState = .speech ∨ s.detector.outState = .hangover
    let held := s.lanes.table.laneOf s.own
    let shut := s.beat.sync ≠ .locked ∨ s.role = .listen ∨ muted ∨ s.capture.mic = .fault ∨ held ≠ none
    ∃ (t : State) (request : Request) (wait : Nat),
      exec .ownReportSlotStart s = .next t ∧
      (shut → request = .none) ∧
      (¬ shut → s.role = .auto → request = if speaking then .claim else .none) ∧
      (¬ shut → s.role = .chair → request = if speaking then .priority else .none) ∧
      (¬ shut → s.role = .keyed → request = if s.keys.keyA.pressed = true then .priority else .none) ∧
      (request = .none → wait = 0) ∧
      (request ≠ .none → request = s.lanes.request → wait = min 255 (s.lanes.waitAge + 1)) ∧
      (request ≠ .none → request ≠ s.lanes.request → wait = 1) ∧
      t.lanes = { s.lanes with request := request, waitAge := wait } ∧
      t.status = u.status.pushAll s.beat.cycle
        (if request = s.lanes.request then [] else [.request request wait]) ∧
      (s.beat.sync ≠ .entering → s.beat.sync ≠ .locked → t.census = s.census ∧ t.line = u.line) ∧
      (s.beat.sync = .entering ∨ s.beat.sync = .locked → ∃ r : Report,
        r.src = s.own ∧ r.role = s.role ∧
        (r.holder = true ↔ s.beat.holderCond = true ∧ s.beat.sync = .locked) ∧
        (r.candidate = true ↔ s.beat.candidate = true ∧ s.beat.sync = .locked) ∧
        r.detector = s.detector.outState ∧
        r.score = (if s.lanes.idleHold then 0 else BitVec.ofNat 8 s.detector.outScore) ∧
        r.request = request ∧
        r.age.toNat = (if request ≠ .none then wait else
          match held with
          | none => 0
          | some l => match s.lanes.table[l] with
            | .free => 0
            | .granted _ _ _ _ => 1
            | .held _ _ age _ _ => min 255 (age + 1)) ∧
        r.held = held ∧
        (r.closing = true ↔ held ≠ none ∧ s.lanes.releasePending ≠ none) ∧
        (r.idle = true ↔ held ≠ none ∧ s.lanes.idleHold = true) ∧
        (r.muted = true ↔ muted) ∧
        (r.muteAll = true ↔ s.role = .chair ∧ s.keys.keyA.pressed = true) ∧
        r.fingerprint = s.keys.fingerprint ∧ r.digest = s.lanes.digest ∧
        t.census = { s.census with
          entries := put s.census.entries s.own (some r), reportTx := some r } ∧
        t.line = { u.line with
          tx := some { kind := .report, bits := encodeReport r, sent := 0 } }) ∧
      { t with census := u.census, line := u.line, lanes := u.lanes, status := u.status } = u

/-- The own report runs to its last bit over a collision (R44). Its readback outcome releases the line and
is kept in the census record: clean if no bit read back differs, collision otherwise (R43, R69). -/
def Obligations.ReportOutcomeIsKeptWithTheCensus : Prop :=
  ∀ (read : BitVec 83) (s : State), s.inReset = false →
    (s.census.reportTx = none → exec (.reportReadbackOutcome read) s = .next s) ∧
    ∀ r, s.census.reportTx = some r →
      let u := s.elapse (match s.line.tx with
        | some x => if x.kind = .report then 83 - x.sent else 0
        | none => 0)
      let v : State := { u with
        line := { u.line with tx := u.line.tx.filter fun x => x.kind ≠ .report } }
      (natBits 83 read.toNat = encodeReport r → exec (.reportReadbackOutcome read) s = .next { v with
        census := { v.census with reportTx := none, readback := some .clean } }) ∧
      (natBits 83 read.toNat ≠ encodeReport r →
        exec (.reportReadbackOutcome read) s = .next { v with
          census := { v.census with reportTx := none, readback := some .collision } })

/-- A report span delivers once, by the first start edge in it that follows the last reception (R36, R37). A
GOOD report of another address (edge in the acceptance window, pattern, CRC, and the five field tests of
R41) is entered; a slot of any other class, and the own slot, enters nothing (R37, R38, R40, R41, R69, R73).
The receiver is free for the next slot once this one is decided. -/
def Obligations.ReportSlotEntersOnlyGoodReports : Prop :=
  ∀ (slot : Addr) (rx : SlotRx) (s : State), s.inReset = false →
    (s.line.reportSpans[slot] = false → exec (.reportSlotDelivered slot rx) s = .next s) ∧
    (s.line.reportSpans[slot] = true →
      ∀ edge, FirstEdge rx (56 + 96 * slot.val) s.line.slotFree 96 edge →
      let good := fun r : Report => ∃ e, edge = some e ∧ e ≤ 16 ∧
        decodeReport (bitsFrom rx e 83) = some r ∧ r.src = slot ∧
        (∀ l : Lane, r.held = some l → l.val < s.laneCount ∧ r.request = .none) ∧
        (r.held = none → r.closing = false ∧ r.idle = false)
      let decided := 56 + 96 * slot.val + match edge with
        | none => 96
        | some e => if 16 < e then e
          else if (bitsFrom rx e 83).take 8 ≠ reportPattern then e + 8 else e + 83
      let u := s.elapseTo decided
      let v : State := { u with line := { u.line with
        reportSpans := put u.line.reportSpans slot false
        slotFree := if edge = none then s.line.slotFree else decided } }
      (∀ r, good r → slot ≠ s.own → exec (.reportSlotDelivered slot rx) s = .next { v with
        census := { v.census with entries := put v.census.entries slot (some r) } }) ∧
      ((slot = s.own ∨ ∀ r, ¬ good r) → exec (.reportSlotDelivered slot rx) s = .next v))

/-- At a census close the presence of every other address moves by Table 5-5, whatever its entry was (R74,
R77). The status port is handed the PEER records, the SYNC record, and the lane manager's records, in that
order (R79, R165); what those are, CensusCloseHandsOverItsRecords says. The capture unit, the detector, the
mix unit, the census record, the lanes as received, the key samples and the beat unit's timers keep their
values. The LINK blink starts, runs on or ends with the sync state (R156). What is being sent goes on, but an
own lane frame stops, and with it its reads, when the own lane is cut, at the entry into CONFLICT or by repair
(R86, R106, R114). All this without a rejoin on divergence, which needs a divergence counter of 3 before
(DivergenceCountsAndRejoins says what that one does). -/
def Obligations.CensusCloseUpdatesPresence : Prop :=
  ∀ s : State, s.inReset = false → s.beat.sync ≠ .listen → s.beat.sync ≠ .aligning →
    (∀ a : Addr, s.census.peers[a].Sound) →
    ∃ t, exec .censusClose s = .next t ∧ (s.lanes.divergence < 3 → t.beat.sync ≠ .listen) ∧
      (t.beat.sync ≠ .listen →
      let u := s.elapseTo 1600
      t.capture = s.capture ∧ t.detector = s.detector ∧ t.mix = u.mix ∧
      t.audio = { s.audio with tx := t.audio.tx } ∧ t.line = { u.line with tx := t.line.tx } ∧
      t.beat = { u.beat with
        sync := t.beat.sync, holder := t.beat.holder, rank := t.beat.rank
        candidate := t.beat.candidate, holderCond := t.beat.holderCond
        obsCount := t.beat.obsCount, entCount := t.beat.entCount } ∧
      t.census = { s.census with
        peers := t.census.peers, ownCollisions := t.census.ownCollisions
        conflictWait := t.census.conflictWait } ∧
      let blinks := fun x : SyncState => x = .aligning ∨ x = .observing ∨ x = .entering
      t.keys = { s.keys with blinkCount := t.keys.blinkCount, linkPhase := t.keys.linkPhase } ∧
      (t.beat.sync = s.beat.sync ∨ blinks s.beat.sync ∧ blinks t.beat.sync →
        t.keys.blinkCount = s.keys.blinkCount ∧ t.keys.linkPhase = s.keys.linkPhase) ∧
      (¬ blinks s.beat.sync → blinks t.beat.sync →
        t.keys.blinkCount = 0 ∧ t.keys.linkPhase = true) ∧
      (t.beat.sync ≠ s.beat.sync → ¬ blinks t.beat.sync →
        t.keys.blinkCount = 0 ∧ t.keys.linkPhase = s.keys.linkPhase) ∧
      (∃ peers sync lanes, PeersRaise s.own s.census.peers t.census.peers peers ∧
        SyncRaises s.beat.sync t.beat.sync t.beat.holder sync ∧
        t.status = u.status.pushAll s.beat.cycle (peers ++ sync ++ lanes)) ∧
      let cut := ∃ l, s.lanes.table.laneOf s.own = some l ∧
        ((t.beat.sync = .conflict ∧ s.beat.sync ≠ .conflict) ∨
          ((t.beat.sync = .entering ∨ t.beat.sync = .locked) ∧ ∃ w, s.Adopts t l w))
      (cut → t.audio.tx = none ∧ t.arbiter = u.arbiter.endTransmitter ∧
        t.line.tx = u.line.tx.map fun x =>
          if x.kind = .lane then { x with bits := x.bits.take (x.sent + 1) } else x) ∧
      (¬ cut → t.audio.tx = s.audio.tx ∧ t.arbiter = u.arbiter ∧ t.line.tx = u.line.tx) ∧
      t.inReset = s.inReset ∧ t.pending = s.pending ∧ t.cycleStarts = s.cycleStarts ∧
      ∀ a : Addr, a ≠ s.own →
        let p := s.census.peers[a]
        let q := t.census.peers[a]
        (∀ r, s.census.entries[a] = some r → r.fingerprint = s.keys.fingerprint →
          (p.presence = .absent → q = { presence := .arriving, good := 1, miss := 0 }) ∧
          (p.presence = .arriving → q = { presence := .present, good := 2, miss := 0 }) ∧
          (p.presence = .present → q = { presence := .present, good := 2, miss := 0 }) ∧
          (p.presence = .missing → q = { presence := .present, good := 2, miss := 0 }) ∧
          (p.presence = .foreign → q = { presence := .arriving, good := 1, miss := 0 })) ∧
        (∀ r, s.census.entries[a] = some r → r.fingerprint ≠ s.keys.fingerprint →
          q = { presence := .foreign, good := 0, miss := 0 }) ∧
        (s.census.entries[a] = none →
          (p.presence = .absent → q = { presence := .absent, good := 0, miss := 0 }) ∧
          (p.presence = .arriving → q = { presence := .absent, good := 0, miss := 0 }) ∧
          (p.presence = .present → q = { presence := .missing, good := 2, miss := 1 }) ∧
          (p.presence = .missing → p.miss = 1 → q = { presence := .missing, good := 2, miss := 2 }) ∧
          (p.presence = .missing → p.miss = 2 → q = { presence := .absent, good := 0, miss := 0 }) ∧
          (p.presence = .foreign → p.miss < 2 →
            q = { presence := .foreign, good := 0, miss := p.miss + 1 }) ∧
          (p.presence = .foreign → p.miss = 2 → q = { presence := .absent, good := 0, miss := 0 })))

/-- What the lane manager hands the status port at a census close (R165): the GATE record of a lane cut at
the entry into CONFLICT (R106), the REPAIR records in ascending lane with the GATE record of an own loss
(R113, R114), the DIVERGENCE record (R121), the GATE record of stage 9 (R100, R101, R103), the REQUEST
record (R89, R106). The order at the entry into CONFLICT is log entry 43, the old owner in a REPAIR record
log entry 25, the SYNC record's holder log entry 17, a missing own report log entry 12. A rejoin adds its own
records (DivergenceCountsAndRejoins). -/
def Obligations.CensusCloseHandsOverItsRecords : Prop :=
  ∀ s : State, s.inReset = false → s.beat.sync ≠ .listen → s.beat.sync ≠ .aligning →
    s.lanes.table.Legal s.laneCount →
    ∃ (t : State) (peers sync divergence gate : List RecordBody), exec .censusClose s = .next t ∧
      (s.lanes.divergence < 3 → t.beat.sync ≠ .listen) ∧ (t.beat.sync ≠ .listen →
      let u := s.elapseTo 1600
      let owns := s.lanes.table.laneOf s.own
      let conflict := t.beat.sync = .conflict ∧ s.beat.sync ≠ .conflict
      let elects := t.beat.sync = .entering ∨ t.beat.sync = .locked
      let repairs := (List.finRange 4).flatMap fun l => match s.winnersAt t l with
        | none => []
        | some w => if s.lanes.table[l].owner = some w.addr then [] else
            (if elects ∧ owns = some l then [.gate l false .conflict] else []) ++
            [RecordBody.repair l
              (if conflict ∧ s.lanes.table[l].owner = some s.own then none else s.lanes.table[l].owner)
              w.addr]
      PeersRaise s.own s.census.peers t.census.peers peers ∧
      SyncRaises s.beat.sync t.beat.sync t.beat.holder sync ∧
      s.DivergenceRaises t divergence ∧ s.GateRaises t gate ∧
      t.status = u.status.pushAll s.beat.cycle (peers ++ sync ++
        (match owns with
          | some l => if conflict then [.gate l false .conflict] else []
          | none => []) ++
        repairs ++ divergence ++ gate ++
        (if (conflict ∨ elects ∧ t.lanes.table.laneOf s.own ≠ none) ∧ s.lanes.request ≠ .none then
          [.request .none 0] else [])))

/-- In ENTERING and LOCKED the readback of the own report moves the own-slot collision counter: clean clears
it, a first collision counts 1 and no more (R57, R70), none sent leaves it. The second collision in a row is
an own-slot conflict: the node goes to CONFLICT for 250 cycles, leaves the beat, and its lane and its
request are gone, and an own lane frame being sent stops (R58, R71, R86, R106). A rejoin on divergence, which
needs a divergence counter of 3 before, clears the counter (R82). -/
def Obligations.SecondOwnCollisionIsConflict : Prop :=
  (∀ s : State, s.inReset = false → (s.beat.sync = .entering ∨ s.beat.sync = .locked) →
    (s.census.readback = some .collision → s.census.ownCollisions = 0) →
    ∃ t, exec .censusClose s = .next t ∧ t.beat.sync ≠ .conflict ∧
      (s.lanes.divergence < 3 → t.beat.sync ≠ .listen) ∧
      (t.beat.sync = .listen → t.census.ownCollisions = 0) ∧ (t.beat.sync ≠ .listen →
      (s.beat.sync = .locked → t.beat.sync = .locked) ∧
      (s.census.readback = some .collision → t.beat.sync ≠ .locked ∨ s.beat.sync = .locked) ∧
      t.census.ownCollisions = match s.census.readback with
        | some .clean => 0
        | some .collision => 1
        | none => s.census.ownCollisions)) ∧
  ∀ s : State, s.inReset = false → (s.beat.sync = .entering ∨ s.beat.sync = .locked) →
    s.census.readback = some .collision → s.census.ownCollisions = 1 →
    ∃ t, exec .censusClose s = .next t ∧
      t.beat.sync = .conflict ∧ t.beat.candidate = false ∧ t.beat.holderCond = false ∧
      t.beat.rank = none ∧ t.beat.entCount = 0 ∧
      t.census.conflictWait = 250 ∧ t.census.ownCollisions = 0 ∧
      t.census.peers[s.own] = { presence := .absent, good := 0, miss := 0 } ∧
      t.lanes.request = .none ∧ t.lanes.waitAge = 0 ∧ t.lanes.divergence = 0 ∧
      t.lanes.digest = t.lanes.table.digest ∧
      (∀ l : Lane, t.lanes.table[l].owner ≠ some s.own ∧ t.lanes.slotCopy[l].owner ≠ some s.own) ∧
      (s.lanes.table.laneOf s.own ≠ none →
        t.audio.tx = none ∧ t.lanes.releasePending = none ∧ t.lanes.idleHold = false ∧
        t.lanes.laneCollisions = 0 ∧
        t.line.tx = (s.elapseTo 1600).line.tx.map fun x =>
          if x.kind = .lane then { x with bits := x.bits.take (x.sent + 1) } else x) ∧
      (s.lanes.table.laneOf s.own = none →
        t.audio.tx = s.audio.tx ∧ t.line.tx = (s.elapseTo 1600).line.tx)

/-- A census close that leaves the node LOCKED, one that makes an ENTERING node so among them (R57), takes as
holder the lowest PRESENT address whose report carries the candidate flag, or none, and as own rank the
position among the candidates behind the holder (R59). A LOCKED node stays LOCKED without an own-slot conflict,
unless it rejoins, which needs a divergence counter of 3 before. -/
def Obligations.LockedNodeSelectsTheHolder : Prop :=
  ∀ s : State, s.inReset = false →
    ∃ t, exec .censusClose s = .next t ∧
      (s.beat.sync = .locked →
        (s.census.readback = some .collision → s.census.ownCollisions = 0) →
        (s.lanes.divergence < 3 → t.beat.sync ≠ .listen) ∧
        (t.beat.sync ≠ .listen → t.beat.sync = .locked)) ∧
      (t.beat.sync = .locked →
        let candidate := fun a : Addr => t.census.peers[a].presence = .present ∧
          ∃ r, s.census.entries[a] = some r ∧ r.candidate = true
        (∀ a, t.beat.holder = some a ↔ candidate a ∧ ∀ b, b < a → ¬ candidate b) ∧
        (t.beat.holder = none ↔ ∀ a, ¬ candidate a) ∧
        ∀ r : Fin 15, t.beat.rank = some r ↔ candidate s.own ∧
          ∃ before : Finset Addr, (∀ a, a ∈ before ↔ candidate a ∧ a < s.own) ∧
            before.card = r.val + 1)

/-- What a census close does to the sync state outside LOCKED: the holder's report (the lowest-addressed
with the holder flag) sets the holder identity; its fingerprint, the own readback and the conflict wait move
the state (R55 to R58, R72). The identity follows at the census close of a change too (log entry 17). A
rejoin on divergence can fall in ENTERING only, at the close that makes the node LOCKED (R119), and needs a
divergence counter of 3 before. -/
def Obligations.CensusCloseMovesTheSyncState : Prop :=
  ∀ s : State, s.inReset = false →
    let isHolder := fun (a : Addr) (r : Report) => s.census.entries[a] = some r ∧ r.holder = true ∧
      ∀ b, b < a → ∀ x, s.census.entries[b] = some x → x.holder = false
    let silent := ∀ (a : Addr) (r : Report), s.census.entries[a] = some r → r.holder = false
    (s.beat.sync = .observing → ∃ t, exec .censusClose s = .next t ∧
      (silent → t.beat.sync = .observing ∧ t.beat.holder = s.beat.holder ∧
        t.beat.obsCount = s.beat.obsCount) ∧
      ∀ a r, isHolder a r → t.beat.holder = some a ∧
        (r.fingerprint = s.keys.fingerprint → s.beat.obsCount = 0 →
          t.beat.sync = .observing ∧ t.beat.obsCount = 1) ∧
        (r.fingerprint = s.keys.fingerprint → s.beat.obsCount = 1 →
          t.beat.sync = .entering ∧ t.beat.entCount = 0) ∧
        (r.fingerprint ≠ s.keys.fingerprint → t.beat.sync = .incompatible ∧ t.beat.obsCount = 0)) ∧
    (s.beat.sync = .incompatible → ∃ t, exec .censusClose s = .next t ∧
      (silent → t.beat.sync = .incompatible ∧ t.beat.holder = s.beat.holder) ∧
      ∀ a r, isHolder a r → t.beat.holder = some a ∧
        (r.fingerprint = s.keys.fingerprint → t.beat.sync = .observing ∧ t.beat.obsCount = 0) ∧
        (r.fingerprint ≠ s.keys.fingerprint → t.beat.sync = .incompatible)) ∧
    (s.beat.sync = .conflict → ∃ t, exec .censusClose s = .next t ∧
      (∀ a r, isHolder a r → t.beat.holder = some a) ∧
      (s.census.conflictWait = 0 → t.beat.sync = .observing ∧ t.beat.obsCount = 0) ∧
      (s.census.conflictWait ≠ 0 → t.beat.sync = .conflict)) ∧
    (s.beat.sync = .entering →
      (s.census.readback = some .collision → s.census.ownCollisions = 0) → ∃ t,
      exec .censusClose s = .next t ∧ (s.lanes.divergence < 3 → t.beat.sync ≠ .listen) ∧
      (t.beat.sync ≠ .listen →
      (∀ a r, isHolder a r → t.beat.sync ≠ .locked → t.beat.holder = some a) ∧
      (∀ a r, isHolder a r → r.fingerprint ≠ s.keys.fingerprint →
        t.beat.sync = .incompatible ∧ t.beat.entCount = 0) ∧
      ((silent ∨ ∃ a r, isHolder a r ∧ r.fingerprint = s.keys.fingerprint) →
        (s.census.readback = some .clean → s.beat.entCount = 0 →
          t.beat.sync = .entering ∧ t.beat.entCount = 1) ∧
        (s.census.readback = some .clean → s.beat.entCount = 1 →
          t.beat.sync = .locked ∧ t.beat.candidate = decide (s.beat.barred = 0) ∧
          t.census.peers[s.own] = { presence := .present, good := 2, miss := 0 }) ∧
        (s.census.readback = none →
          t.beat.sync = .entering ∧ t.beat.entCount = s.beat.entCount) ∧
        (s.census.readback = some .collision → t.beat.sync = .entering ∧ t.beat.entCount = 0)))) ∧
    (s.beat.sync = .listen ∨ s.beat.sync = .aligning →
      exec .censusClose s = .next (s.elapseTo 1600))

/-- A LOCKED node that sent its report compares the digests of the census: a strict majority of differing
reports moves the divergence counter on, and at 4 the node rejoins; any other census clears it (R119, R120,
R122). The rejoin follows the end of the census close, `v`, which is as with a counter that stays below 4: its
records SYNC with reason DIVERGED, GATE and REQUEST come after those of the census close (R109, R165); cycle
timer and number, capture, detector, keys, status port, the unlisted flag and the output port go on (R15, R32,
R64, R138, R148, R160), the blink counter is cleared (R156). What is being sent stops, no outcome stands and
no request is kept (log entry 37); what becomes of an output frame is log entry 23. -/
def Obligations.DivergenceCountsAndRejoins : Prop :=
  ∀ (s : State) (own : Report), s.inReset = false → s.beat.sync = .locked →
    (s.census.readback = some .collision → s.census.ownCollisions = 0) →
    s.census.entries[s.own] = some own →
    let peers := updatePeers s.own s.keys.fingerprint s.census.entries s.census.peers
    ∃ (t : State) (compared differing : Finset Addr),
      (∀ a, a ∈ compared ↔ (∃ r, s.census.entries[a] = some r) ∧
        (a = s.own ∨ peers[a].presence = .present)) ∧
      (∀ a, a ∈ differing ↔ a ∈ compared ∧
        ∃ r, s.census.entries[a] = some r ∧ r.digest ≠ own.digest) ∧
      exec .censusClose s = .next t ∧
      (2 * differing.card ≤ compared.card → t.beat.sync = .locked ∧ t.lanes.divergence = 0) ∧
      (compared.card < 2 * differing.card → s.lanes.divergence < 3 →
        t.beat.sync = .locked ∧ t.lanes.divergence = s.lanes.divergence + 1) ∧
      (compared.card < 2 * differing.card → 3 ≤ s.lanes.divergence → t.OffTheLine ∧ ∃ v : State,
        exec .censusClose { s with lanes := { s.lanes with divergence := 2 } } = .next v ∧
        v.beat.sync = .locked ∧ v.lanes.divergence = 3 ∧
        t.status = v.status.pushAll s.beat.cycle
          ([.sync .listen .diverged none] ++
            (match v.lanes.table.laneOf s.own with
              | some l => [.gate l false .lost]
              | none => []) ++
            (if v.lanes.request = .none then [] else [.request .none 0])) ∧
        t.beat.timer = v.beat.timer ∧ t.beat.cycle = v.beat.cycle ∧ t.capture = v.capture ∧
        t.detector = v.detector ∧ t.arbiter = v.arbiter.endTransmitter ∧
        t.keys = { v.keys with blinkCount := 0 } ∧
        t.line.tx = (v.line.tx.map fun x => { x with bits := x.bits.take (x.sent + 1) }) ∧
        t.line.candidate = v.line.candidate ∧ t.line.beatQuiet = v.line.beatQuiet ∧
        t.mix.refAge = v.mix.refAge ∧ t.mix.oclk = v.mix.oclk ∧ t.mix.frame = v.mix.frame ∧
        t.audio.unlisted = v.audio.unlisted ∧
        t.inReset = false ∧ t.pending = s.pending ∧ t.cycleStarts = s.cycleStarts)

/-! ## The lanes -/

/-- The claim list holds exactly the PRESENT addresses that request and own no lane, the chairs' alone while
a PRESENT chair mutes all, in the order PRIORITY first, then higher wait age, then higher score, then lower
address (R93, R94). -/
def Obligations.ClaimListIsOrderedAndComplete : Prop :=
  ∀ (d : Delivery) (t : LaneTable),
    ((claimList d t).Pairwise fun x y =>
      (x.priority = true ∧ y.priority = false) ∨ (x.priority = y.priority ∧
        (y.wait < x.wait ∨ (y.wait = x.wait ∧
          (y.score < x.score ∨ (y.score = x.score ∧ x.addr < y.addr)))))) ∧
    ∀ c : Claim, c ∈ claimList d t ↔ ∃ r : Report,
      d.entries[c.addr] = some r ∧ d.peers[c.addr].presence = .present ∧ r.request ≠ .none ∧
      (∀ l : Lane, t[l].owner ≠ some c.addr) ∧
      ((∃ (a : Addr) (x : Report), d.entries[a] = some x ∧ d.peers[a].presence = .present ∧
        x.role = .chair ∧ x.muteAll = true) → r.role = .chair) ∧
      (c.priority = true ↔ r.request = .priority) ∧
      c.wait = (if r.age = 0 then 1 else r.age.toNat) ∧ c.score = r.score.toNat

/-- An announcement is a report with a held lane and without closing, of an address that is PRESENT or
ARRIVING, or FOREIGN in INCOMPATIBLE, not assembled before an own cut of the cycle (R110, R117, log entry
33). The winner of a lane is the announcement of it with the highest age, and of those the one from the
lowest address; a lane of index M or above has none (R111). -/
def Obligations.WinnerIsTheOldestAnnouncement : Prop :=
  (∀ (sync : SyncState) (voided : Option Addr) (d : Delivery) (x : Announcement),
    x ∈ announcements sync voided d ↔ ∃ r : Report, d.entries[x.addr] = some r ∧
      r.held = some x.lane ∧ r.closing = false ∧ voided ≠ some x.addr ∧
      (d.peers[x.addr].presence = .present ∨ d.peers[x.addr].presence = .arriving ∨
        (sync = .incompatible ∧ d.peers[x.addr].presence = .foreign)) ∧
      x.age = (if r.age = 0 then 1 else r.age.toNat) ∧ x.role = r.role ∧ x.score = r.score.toNat ∧
      x.idle = r.idle) ∧
  ∀ (m : Nat) (sync : SyncState) (voided : Option Addr) (d : Delivery) (l : Lane) (w : Announcement),
    winner m (announcements sync voided d) l = some w ↔
      l.val < m ∧ w ∈ announcements sync voided d ∧ w.lane = l ∧
      ∀ x ∈ announcements sync voided d, x.lane = l →
        x.age < w.age ∨ (x.age = w.age ∧ w.addr ≤ x.addr)

/-- Adoption by repair, and follow mode. A lane with a winner other than its owner becomes HELD by the
winner with the announced values, the winner's other lane becomes FREE, and every other lane stays (R112,
R113). In follow mode the winner's announcement brings its lane up to date, a MISSING owner keeps its lane
and grows older, every other lane becomes FREE (R116). What is adopted is decided on the table before stage
1 (log entry 25); a GRANTED lane of a MISSING owner becomes HELD with hold age 1 (log entry 26). -/
def Obligations.RepairAdoptsAndFollowModeUpdates : Prop :=
  ∀ (win : Lane → Option Announcement) (before : LaneTable) (d : Delivery) (l : Lane),
    (∀ (j k : Lane) (x y : Announcement), win j = some x → win k = some y → x.addr = y.addr → j = k) →
    let kind := fun w : Announcement =>
      if w.role = .keyed ∨ w.role = .chair then OwnerKind.priority else .auto
    let freed := ∃ (k : Lane) (w : Announcement), k ≠ l ∧ win k = some w ∧
      before[k].owner ≠ some w.addr ∧ before[l].owner = some w.addr
    let t := repairTable win before before
    let f := followTable d win before
    (∀ w, win l = some w → before[l].owner ≠ some w.addr →
      t[l] = .held w.addr (kind w) w.age w.score w.idle ∧ f[l] = t[l]) ∧
    (∀ w k, win l = some w → before[l].owner = some w.addr → before[l].kind = some k →
      t[l] = before[l] ∧ f[l] = .held w.addr k w.age w.score w.idle) ∧
    (win l = none → freed → t[l] = .free ∧ f[l] = .free) ∧
    (win l = none → ¬ freed → t[l] = before[l] ∧
      (before[l] = .free → f[l] = .free) ∧
      ∀ o k, before[l].owner = some o → before[l].kind = some k →
        (d.peers[o].presence ≠ .missing → f[l] = .free) ∧
        (d.peers[o].presence = .missing →
          (∀ age score idle, before[l] = .held o k age score idle →
            f[l] = .held o k (min 255 (age + 1)) score idle) ∧
          (∀ score idle, before[l] = .granted o k score idle → f[l] = .held o k 1 score idle)))

/-- Stage 2 frees a lane whose owner is ABSENT or FOREIGN, or reports it closing, or reports another lane or
none, and leaves every other lane (R91). Stage 3 makes GRANTED lanes HELD and brings HELD lanes up to date
from their owners' reports (R92). -/
def Obligations.LanesAreFreedAndConfirmed : Prop :=
  ∀ (d : Delivery) (t : LaneTable) (l : Lane),
    (t[l] = .free → (stage2 d t)[l] = .free ∧ (stage3 d t)[l] = .free) ∧
    (∀ o, t[l].owner = some o →
      let freed := d.peers[o].presence = .absent ∨ d.peers[o].presence = .foreign ∨
        ∃ r : Report, d.entries[o] = some r ∧ (r.held ≠ some l ∨ r.closing = true)
      (freed → (stage2 d t)[l] = .free) ∧ (¬ freed → (stage2 d t)[l] = t[l])) ∧
    (∀ o k score idle, t[l] = .granted o k score idle →
      (∀ r, d.entries[o] = some r → (stage3 d t)[l] =
        .held o k (if r.age = 0 then 1 else r.age.toNat) r.score.toNat r.idle) ∧
      (d.entries[o] = none → (stage3 d t)[l] = .held o k 1 score idle)) ∧
    ∀ o k age score idle, t[l] = .held o k age score idle →
      (∀ r, d.entries[o] = some r → (stage3 d t)[l] =
        .held o k (if r.age = 0 then 1 else r.age.toNat) r.score.toNat r.idle) ∧
      (d.entries[o] = none → (stage3 d t)[l] = .held o k (min 255 (age + 1)) score idle)

/-- Stage 5 gives the FREE lanes below M, in ascending order, to the first entries of the claim list, and
leaves every other lane (R95). Stage 6 gives the HELD lanes whose owner is idle in the same way (R96). -/
def Obligations.FreeLanesGoToTheFirstClaims : Prop :=
  ∀ (m : Nat) (t : LaneTable) (cs : List Claim),
    let free := (List.finRange 4).filter fun l => decide (l.val < m) && t[l].isFree
    (stage5 m t cs).2 = cs.drop free.length ∧
    (∀ (k : Nat) (l : Lane) (c : Claim), free[k]? = some l → cs[k]? = some c →
      (stage5 m t cs).1[l] =
        .granted c.addr (if c.priority then .priority else .auto) c.score false) ∧
    (∀ l : Lane, (∀ k : Nat, free[k]? = some l → cs[k]? = none) → (stage5 m t cs).1[l] = t[l]) ∧
    let idle := (List.finRange 4).filter fun l => t[l].isHeld && t[l].idle
    (stage6 t cs).2 = cs.drop idle.length ∧
    (∀ (k : Nat) (l : Lane) (c : Claim), idle[k]? = some l → cs[k]? = some c →
      (stage6 t cs).1[l] = .granted c.addr (if c.priority then .priority else .auto) c.score false) ∧
    ∀ l : Lane, (∀ k : Nat, idle[k]? = some l → cs[k]? = none) → (stage6 t cs).1[l] = t[l]

/-- Stage 7 makes one preemption or none, for the first remaining claim. Its victim is a HELD lane of kind
AUTO, for a CLAIM only under LOUDEST with hold age 25 and a margin of 12, of lowest score, then lowest hold
age, then highest owner address (R97, R98). -/
def Obligations.PreemptionTakesTheWeakestLane : Prop :=
  ∀ (policy : Policy) (t : LaneTable) (c : Claim) (cs : List Claim),
    let eligible := fun (l : Lane) (o : Addr) (age score : Nat) =>
      (∃ idle, t[l] = .held o .auto age score idle) ∧
      (c.priority = true ∨ (policy = .loudest ∧ 25 ≤ age ∧ score + 12 ≤ c.score))
    stage7 policy t [] = t ∧
    ((∀ l o age score, ¬ eligible l o age score) → stage7 policy t (c :: cs) = t) ∧
    ((∃ l o age score, eligible l o age score) →
      ∃ (l : Lane) (o : Addr) (age score : Nat), eligible l o age score ∧
        (∀ k p a x, eligible k p a x →
          score < x ∨ (score = x ∧ (age < a ∨ (age = a ∧ p ≤ o)))) ∧
        stage7 policy t (c :: cs) =
          put t l (.granted c.addr (if c.priority then .priority else .auto) c.score false))

/-- The lane table that a census close leaves: in ENTERING and LOCKED the stages 1 to 7 in their order, in
the other states follow mode; the digest is that of the table (R90, R99, R116). A lane lost to repair is cut
from the slot copy too, with the flags of the own lane and its transmission (R114). An own lane that ends in
stage 2, 6 or 7 loses its release-pending and idle-hold flags and its lane-slot collision counter (R101, R103,
R123), and else the counter stays. All this without a rejoin on divergence, which needs a divergence counter
of 3 before. -/
def Obligations.CensusCloseWritesTheLaneTable : Prop :=
  ∀ s : State, s.inReset = false → s.beat.sync ≠ .listen → s.beat.sync ≠ .aligning →
    s.lanes.table.Legal s.laneCount →
    ∃ t, exec .censusClose s = .next t ∧ (s.lanes.divergence < 3 → t.beat.sync ≠ .listen) ∧
      (t.beat.sync ≠ .listen →
      let d : Delivery := { entries := s.census.entries, peers := t.census.peers, m := s.laneCount }
      let elects := t.beat.sync = .entering ∨ t.beat.sync = .locked
      let lost := ∃ l w, s.lanes.table.laneOf s.own = some l ∧ s.Adopts t l w
      (elects →
        let t2 := stage2 d (repairTable (s.winnersAt t) s.lanes.table s.lanes.table)
        let t3 := stage3 d t2
        let r5 := stage5 s.laneCount t3 (claimList d t3)
        let r6 := stage6 r5.1 r5.2
        t.lanes.table = stage7 s.keys.straps.policy r6.1 r6.2) ∧
      (¬ elects → t.lanes.table = followTable d (s.winnersAt t) s.lanes.table) ∧
      t.lanes.digest = t.lanes.table.digest ∧ t.lanes.closingCycle = s.lanes.closingCycle ∧
      (elects → ¬ lost → t.lanes.slotCopy = s.lanes.slotCopy ∧ t.audio.tx = s.audio.tx) ∧
      (elects → lost → t.audio.tx = none ∧ t.lanes.releasePending = none ∧
        t.lanes.idleHold = false ∧ t.lanes.laneCollisions = 0 ∧ t.lanes.cutInCycle = true ∧
        ∀ l : Lane, t.lanes.slotCopy[l] =
          if s.lanes.slotCopy[l].owner = some s.own then .free else s.lanes.slotCopy[l]) ∧
      (elects → ¬ lost → s.lanes.table.laneOf s.own ≠ none →
        let e := s.electionAt t
        let kept := e.after2.laneOf s.own ≠ none ∧ e.after6.laneOf s.own ≠ none ∧
          e.after7.laneOf s.own ≠ none
        (¬ kept → t.lanes.releasePending = none ∧ t.lanes.idleHold = false ∧
          t.lanes.laneCollisions = 0) ∧
        (kept → t.lanes.laneCollisions = s.lanes.laneCollisions)))

/-- Two nodes, each LOCKED or ENTERING, with the same census, the same peer table, the same lane count and
policy, and the same legal lane table, leave the census-close operation with the same lane table and the
same digest, whatever their own addresses (R90). -/
def Obligations.EqualNodesElectEqualTables : Prop :=
  ∀ s t : State, (s.beat.sync = .entering ∨ s.beat.sync = .locked) →
    (t.beat.sync = .entering ∨ t.beat.sync = .locked) →
    s.laneCount = t.laneCount → s.keys.straps.policy = t.keys.straps.policy →
    s.census.entries = t.census.entries → s.census.peers = t.census.peers →
    s.lanes.table = t.lanes.table → s.lanes.table.Legal s.laneCount →
    s.lanes.cutInCycle = false → t.lanes.cutInCycle = false →
    (s.lanesAtCensus false).1.lanes.table = (t.lanesAtCensus false).1.lanes.table ∧
    (s.lanesAtCensus false).1.lanes.digest = (t.lanesAtCensus false).1.lanes.digest

/-- An own lane that a LOCKED node still holds after stage 7, with no release pending, is put to the release
test of Table 6-8, whose first row that holds gives the reason; else it is kept, and the idle hold is set
where R104 admits it. While the table lists the node, its request is NONE (R89, R102, R104). All this without
a rejoin on divergence, which needs a divergence counter of 3 before. -/
def Obligations.HeldOwnLaneIsTestedForRelease : Prop :=
  ∀ (s : State) (l : Lane), s.inReset = false → s.beat.sync = .locked →
    (s.census.readback = some .collision → s.census.ownCollisions = 0) →
    ∃ t, exec .censusClose s = .next t ∧ (s.lanes.divergence < 3 → t.beat.sync ≠ .listen) ∧
      (t.beat.sync ≠ .listen →
      (t.lanes.table.laneOf s.own ≠ none → t.lanes.request = .none ∧ t.lanes.waitAge = 0) ∧
      (s.lanes.table.laneOf s.own = some l → s.lanes.releasePending = none →
        (∃ k age score idle, t.lanes.table[l] = .held s.own k age score idle) →
        let muteAll := ∃ (a : Addr) (r : Report), s.census.entries[a] = some r ∧
          t.census.peers[a].presence = .present ∧ r.role = .chair ∧ r.muteAll = true
        let muted := s.keys.muteLatch = true ∨ (s.role = .auto ∧ s.keys.keyA.pressed = true)
        let speaker := s.role = .auto ∨ s.role = .chair
        let eligible := s.keys.straps.lastOn = true ∧ speaker ∧ s.detector.outState = .silent ∧
          ∀ k : Lane, k ≠ l → t.lanes.table[k] = .free
        (muteAll ∧ s.role ≠ .chair → t.lanes.releasePending = some .revoked) ∧
        (¬ (muteAll ∧ s.role ≠ .chair) → s.capture.mic = .fault →
          t.lanes.releasePending = some .mic) ∧
        (¬ (muteAll ∧ s.role ≠ .chair) → s.capture.mic = .ok →
          muted ∨ (s.role = .keyed ∧ s.keys.keyA.pressed = false) ∨
            (speaker ∧ s.detector.outState = .silent ∧ ¬ eligible) →
          t.lanes.releasePending = some .release) ∧
        (¬ (muteAll ∧ s.role ≠ .chair) → s.capture.mic = .ok → ¬ muted →
          ¬ (s.role = .keyed ∧ s.keys.keyA.pressed = false) →
          ¬ (speaker ∧ s.detector.outState = .silent ∧ ¬ eligible) →
          t.lanes.releasePending = none ∧
          (t.lanes.idleHold = true ↔ s.lanes.idleHold = true ∨ eligible)) ∧
        (t.lanes.releasePending ≠ none → t.lanes.idleHold = false)))

/-- The readback outcome of the own lane frame. The outcome of a frame that a realigning cycle start stopped
covers the bits it had sent and comes first (R45); a running frame ends after its colliding bit, else after
its last (R43, R44). While the table lists an own lane, clean clears the collision counter, a first
collision counts 1, a second one cuts the own lane with reason CONFLICT (R86, R123, R124). Without an own
lane the outcome counts nothing (log entry 24). -/
def Obligations.SecondLaneCollisionCutsTheLane : Prop :=
  ∀ (read : BitVec 1064) (s : State), s.inReset = false →
    (s.line.stopped = [] → s.audio.tx = none → exec (.laneReadbackOutcome read) s = .next s) ∧
    ∀ (v : State) (sent : List Bool),
      (∃ rest, s.line.stopped = sent :: rest ∧ v = { s with line := { s.line with stopped := rest } }) ∨
      (s.line.stopped = [] ∧ ∃ (f : LaneFrame) (n : Nat), s.audio.tx = some f ∧
        ((n = 1064 ∧ natBits 1064 read.toNat = encodeLane f) ∨
          (n ≤ 1064 ∧ ∃ i, n = i + 1 ∧ (natBits 1064 read.toNat)[i]? ≠ (encodeLane f)[i]? ∧
            ∀ j, j < i → (natBits 1064 read.toNat)[j]? = (encodeLane f)[j]?)) ∧
        sent = (encodeLane f).take n ∧
        let u := s.elapse (match s.line.tx with
          | some x => if x.kind = .lane then n - x.sent else 0
          | none => 0)
        v = { u with
          audio := { u.audio with tx := none }
          arbiter := u.arbiter.endTransmitter
          line := { u.line with tx := u.line.tx.filter fun x => x.kind ≠ .lane } }) →
      let clean := ∀ i, i < sent.length → i < 1064 → (natBits 1064 read.toNat)[i]? = sent[i]?
      (s.lanes.table.laneOf s.own = none → exec (.laneReadbackOutcome read) s = .next v) ∧
      ∀ l, s.lanes.table.laneOf s.own = some l →
        (clean → exec (.laneReadbackOutcome read) s =
          .next { v with lanes := { v.lanes with laneCollisions := 0 } }) ∧
        (¬ clean → s.lanes.laneCollisions = 0 → exec (.laneReadbackOutcome read) s =
          .next { v with lanes := { v.lanes with laneCollisions := 1 } }) ∧
        (¬ clean → s.lanes.laneCollisions = 1 →
          ∃ t, exec (.laneReadbackOutcome read) s = .next t ∧
            (∀ k : Lane, t.lanes.table[k] =
              if s.lanes.table[k].owner = some s.own then .free else s.lanes.table[k]) ∧
            (∀ k : Lane, t.lanes.slotCopy[k] =
              if s.lanes.slotCopy[k].owner = some s.own then .free else s.lanes.slotCopy[k]) ∧
            t.lanes.digest = t.lanes.table.digest ∧ t.lanes.releasePending = none ∧
            t.lanes.idleHold = false ∧ t.lanes.laneCollisions = 0 ∧ t.lanes.cutInCycle = true ∧
            t.lanes.request = s.lanes.request ∧ t.lanes.waitAge = s.lanes.waitAge ∧
            t.lanes.divergence = s.lanes.divergence ∧
            t.lanes.closingCycle = s.lanes.closingCycle ∧
            t.status = v.status.push
              { cycle := s.beat.cycle, body := .gate l false .conflict } ∧
            t.audio = { v.audio with tx := none } ∧ t.arbiter = v.arbiter.endTransmitter ∧
            t.line = { v.line with tx := v.line.tx.map fun x =>
              if x.kind = .lane then { x with bits := x.bits.take (x.sent + 1) } else x } ∧
            { t with
              lanes := s.lanes, status := v.status, audio := v.audio, arbiter := v.arbiter
              line := v.line } = v)

/-! ## Lane audio and mix -/

/-- At a lane slot a LOCKED node that the slot copy lists there sends the frame of age 3 with its marker and
sequence (R125 to R127, Table 8-2); any other node sends nothing. The transmitter binds its bank read to
that slot (R11; the times of its requests are log entry 20). -/
def Obligations.LaneSlotSendsTheOwnFrame : Prop :=
  ∀ (lane : Lane) (s : State), s.inReset = false →
    let u := s.elapseTo (1600 + 1088 * lane.val)
    let sends := lane.val < s.laneCount ∧ s.beat.sync = .locked ∧
      s.lanes.slotCopy[lane].owner = some s.own
    (¬ sends → exec (.laneSlotStart lane) s = .next u) ∧
    (sends → ∃ f : LaneFrame,
      f.src = s.own ∧ f.lane = lane ∧ f.samples = (s.capture.ofAge 3).read ∧
      f.sequence.toNat = (s.beat.cycle.toNat + 65536 - 3) % 256 ∧
      ((s.capture.ofAge 3).validity ≠ .valid → f.marker = .silent) ∧
      ((s.capture.ofAge 3).validity = .valid → s.lanes.slotCopy[lane].isGranted = true →
        f.marker = .first) ∧
      ((s.capture.ofAge 3).validity = .valid → s.lanes.slotCopy[lane].isGranted = false →
        f.marker = if s.lanes.closingCycle then .last else .continue) ∧
      exec (.laneSlotStart lane) s = .next { u with
        audio := { u.audio with tx := some f }
        arbiter := u.arbiter.endTransmitter.raiseTransmitter (!Config.detectorFirst s.cycleStarts)
          (s.capture.fill - 3)
        line := { u.line with
          tx := some { kind := .lane, bits := encodeLane f, sent := 0 } } })

/-- A lane span delivers once, by the first start edge in it that follows the last reception (R36, R37). The
command acts at the instant at which the class is decided, at once when that is past (log entries 8, 21). An
accepted frame stands as received after it, and the contribution stands after it, also when the set is handed
over (log entry 42). A
GOOD frame is accepted when its lane, source and sequence agree (R130); a GOOD frame of the lane from
another source sets the unlisted flag (R131); the lane is judged by Table 8-4, and the last delivery hands
the contributions to the mix unit (R132 to R136). -/
def Obligations.LaneSlotIsJudged : Prop :=
  ∀ (lane : Lane) (rx : SlotRx) (s : State), s.inReset = false →
    (s.line.laneSpans[lane] = false → exec (.laneSlotDelivered lane rx) s = .next s) ∧
    (s.line.laneSpans[lane] = true →
      ∀ edge, FirstEdge rx (1592 + 1088 * lane.val) s.line.slotFree 1088 edge →
      let copy := s.lanes.slotCopy[lane]
      let good := fun f : LaneFrame => ∃ e, edge = some e ∧ e ≤ 16 ∧
        decodeLane (bitsFrom rx e 1064) = some f
      let accepted := fun f : LaneFrame => good f ∧ f.lane = lane ∧ copy.owner = some f.src ∧
        f.sequence.toNat = (s.beat.cycle.toNat + 65536 - 3) % 256
      let unlisted := ∃ f, good f ∧ f.lane = lane ∧ copy.owner ≠ some f.src
      let missing := ∀ f, ¬ accepted f
      let old := s.audio.lanes[lane]
      let decided := 1592 + 1088 * lane.val + match edge with
        | none => 1088
        | some e => if 16 < e then e
          else if (bitsFrom rx e 1064).take 8 ≠ lanePattern then e + 8 else e + 1064
      let u := s.elapseTo decided
      ∃ (t : State) (new : LaneRx) (c : Contribution),
        exec (.laneSlotDelivered lane rx) s = .next t ∧
        new.contribution = some c ∧ c.own = decide (copy.owner = some s.own) ∧
        (∀ f, accepted f → new.received = some f) ∧ (missing → new.received = none) ∧
        (∀ f, accepted f → new.lastGood = if f.marker = .silent then silence else f.samples) ∧
        (missing → new.lastGood = old.lastGood) ∧
        (copy = .free → new.state = .muted ∧ c.samples = silence ∧ c.ramp = .zero ∧
          c.isOpen = false ∧ new.faded = true) ∧
        (∀ f, accepted f → f.marker = .silent → new.state = .good ∧ c.samples = silence ∧
          c.ramp = .zero ∧ c.isOpen = false ∧ new.faded = true) ∧
        (∀ f, accepted f → f.marker ≠ .silent → new.state = .good ∧ c.samples = f.samples ∧
          c.isOpen = true ∧
          (old.faded = true ∨ f.marker = .first → c.ramp = .rising ∧ new.faded = false) ∧
          (old.faded = false → f.marker = .last → c.ramp = .falling ∧ new.faded = true) ∧
          (old.faded = false → f.marker = .continue → c.ramp = .unity ∧ new.faded = false)) ∧
        (copy ≠ .free → missing → old.state = .good → new.state = .concealed ∧
          c.samples = old.lastGood ∧ c.ramp = .falling ∧ c.isOpen = true ∧ new.faded = true) ∧
        (copy ≠ .free → missing → old.state ≠ .good → new.state = .muted ∧
          c.samples = silence ∧ c.ramp = .zero ∧ c.isOpen = false ∧ new.faded = true) ∧
        t.audio = { s.audio with
          lanes := put s.audio.lanes lane new, unlisted := t.audio.unlisted } ∧
        (t.audio.unlisted = true ↔ s.audio.unlisted = true ∨ unlisted) ∧
        t.line = { u.line with
          laneSpans := put u.line.laneSpans lane false
          slotFree := if edge = none then s.line.slotFree else decided } ∧
        ((∃ k : Lane, k ≠ lane ∧ s.line.laneSpans[k] = true) → t.mix = u.mix) ∧
        ((∀ k : Lane, k ≠ lane → s.line.laneSpans[k] = false) →
          ∃ set : ContributionSet, set[lane] = c ∧
            (∀ k : Lane, k ≠ lane →
              set[k] = s.audio.lanes[k].contribution.getD Contribution.zero) ∧
            t.mix = { u.mix with
              nextStatus := .forming, sets := s.mix.sets + 1
              formingNext := some { set := set, number := s.mix.sets + 1, age := 0 } }) ∧
        { t with audio := u.audio, line := u.line, mix := u.mix } = u)

/-- The end of a mix formation writes both channels: each sample is the weighted sum of the contributions,
scaled by the gain of the number of open lanes, rounded and saturated; the right channel leaves out the own
lane. A sample that saturates raises a CLIP record of source MIX (R139 to R143). The buffer is written as a
whole. The set that completed first ends first, one whose buffer plays no more among them: it writes no buffer
but still raises its record (log entry 22). Without a formation nothing ends. -/
def Obligations.MixIsTheScaledWeightedSum : Prop :=
  (∀ s : State, s.inReset = false → s.mix.formingLeft = [] → s.mix.formingPlaying = none →
    s.mix.formingNext = none → exec .mixFormationEnd s = .next s) ∧
  ∀ (s : State) (set : ContributionSet), s.inReset = false →
    (∃ rest, s.mix.formingLeft ++
      (s.mix.formingPlaying.toList ++ s.mix.formingNext.toList).map (·.set) = set :: rest) →
    let weight := fun (c : Contribution) (i : Fin 64) => match c.ramp with
      | .unity => (64 : Int)
      | .rising => i.val + 1
      | .falling => 64 - i.val
      | .zero => 0
    let count := (Finset.univ.filter fun l : Lane => set[l].isOpen = true).card
    let gain := (#v[0, 32767, 23170, 18919, 16384] : Vector Int 5)[Fin.ofNat 5 count]
    let full := fun i : Fin 64 => ∑ l : Lane, set[l].samples[i].toInt * weight set[l] i
    let minus := fun i : Fin 64 => ∑ l : Lane,
      if set[l].own then 0 else set[l].samples[i].toInt * weight set[l] i
    ∃ (t : State) (b : Buffer) (x y : Fin 64 → Int),
      exec .mixFormationEnd s = .next t ∧
      (∀ i, IsRounded (full i * gain) 2097152 (x i) ∧ IsSaturated (x i) b.left[i] ∧
        IsRounded (minus i * gain) 2097152 (y i) ∧ IsSaturated (y i) b.right[i]) ∧
      (s.mix.formingLeft ≠ [] → t.mix = { s.mix with formingLeft := s.mix.formingLeft.tail }) ∧
      (s.mix.formingLeft = [] → s.mix.formingPlaying ≠ none →
        t.mix = { s.mix with playing := b, formingPlaying := none }) ∧
      (s.mix.formingLeft = [] → s.mix.formingPlaying = none →
        t.mix = { s.mix with next := b, nextStatus := .formed, formingNext := none }) ∧
      ((∃ i, 32767 < x i ∨ x i < -32768 ∨ 32767 < y i ∨ y i < -32768) →
        t.status = s.status.push { cycle := s.beat.cycle, body := .clip .mix }) ∧
      ((∀ i, -32768 ≤ x i ∧ x i ≤ 32767 ∧ -32768 ≤ y i ∧ y i ≤ 32767) → t.status = s.status) ∧
      { t with mix := s.mix, status := s.status } = s

/-- Output frame `k` starts at the first falling edge of OCLK at or after the frame reference plus k × 192
bit times (R146). Each channel slot carries sample `k` of the playing buffer as it stands when the slot
starts, zeros while that sample is not yet formed. A mix being formed has its samples within 64 bit times from
the completion of its set, sample 0 first; what time each takes is a free value (log entry 22). Frame 0 is zeros when the set completed at the realigning
cycle start (R140, log entry 23). OWS is low in the left slot and high from the right slot on, ODAT carries
the sample in the first 16 periods of its slot, then zeros (R145). -/
def Obligations.OutputFrameCarriesThePlayingBuffer : Prop :=
  let sample := fun (channel : Buffer → Frame) (later : Nat) (k : Fin 64) (m : Mix) =>
    if m.closed = true ∧ k = 0 then 0 else match m.formingPlaying with
      | none => (channel m.playing)[k]
      | some f => if 64 ≤ f.age + later ∨
            ∑ j ∈ Finset.range (k.val + 1), Config.formingTime f.number j ≤ f.age + later
          then (channel (formMix f.set))[k] else 0
  (∀ (f : Formation) (n m : Nat) (j k : Fin 64), j ≤ k → n ≤ m →
    (f.formed n k = true → f.formed m j = true) ∧ (64 ≤ f.age + n → f.formed n k = true)) ∧
  (∀ (k : Fin 64) (s : State), s.inReset = false → s.mix.oclk < 12 → s.mix.oclk % 4 = 0 →
    ∃ (t : State) (n : Nat), n < 3 ∧
      let u := s.elapse (192 * k.val - s.mix.refAge + n)
      exec (.outputFrameStart k) s = .next t ∧ t.mix.oclk = 0 ∧
      t = { u with mix := { u.mix with
        frame := some
          { position := k, left := sample Buffer.left 0 k u.mix, right := none, age := 0 } } }) ∧
  (∀ (s : State) (f : OutFrame) (n : Nat), s.mix.frame = some f → f.right = none → f.age ≤ 96 →
    (f.age + n < 96 → (s.elapse n).mix.frame = some { f with age := f.age + n }) ∧
    (96 ≤ f.age + n → (s.elapse n).mix.frame = some { f with
      age := f.age + n
      right := some (sample Buffer.right (96 - f.age) f.position s.mix) })) ∧
  ∀ (s : State) (f : OutFrame) (x : Sample), s.inReset = false → s.mix.frame = some f →
    f.right = some x ∨ f.age < 96 →
    (s.owsHigh = true ↔ 96 ≤ f.age) ∧
    ∀ i, 3 * i ≤ f.age → f.age < 3 * i + 3 →
      s.odatHigh = if i < 16 then f.left.getMsbD i else if 32 ≤ i ∧ i < 48 then x.getMsbD (i - 32)
        else false

/-! ## Keys and status port -/

/-- A key changes at the fifth sample in a row that differs from its debounced state, and not before; a
sample that agrees restarts the count (R153). -/
def Obligations.KeyChangesAtTheFifthSample : Prop :=
  ∀ (k : Key) (samples : List Bool), k.count = 0 →
    (samples.length < 5 →
      (samples.foldl (fun k b => k.sample b) k).pressed = k.pressed) ∧
    (samples.length = 5 → (∀ b ∈ samples, b = !k.pressed) →
      samples.foldl (fun k b => k.sample b) k = { pressed := !k.pressed, count := 0 }) ∧
    (samples.length = 5 → (∃ b ∈ samples, b = k.pressed) →
      (samples.foldl (fun k b => k.sample b) k).pressed = k.pressed) ∧
    ∀ (j : Key) (b : Bool), b = j.pressed → j.sample b = { pressed := j.pressed, count := 0 }

/-- A transmission start is taken at the first boundary of the bit clock, from now on, at which a record may
start (R163, R168); that bit times pass until then, up to the one that holds the boundary, is log entry 29.
It takes the head record out of the queue, takes the overrun flag into it and clears it, and freezes its
bytes, whose sum is 0 mod 256. The record occupies ten bit periods a byte: start bit, data bits least
significant first, stop bit; the end of the last one ends it (R161 to R163, R166). -/
def Obligations.StatusPortSendsTheHeadRecord : Prop :=
  let start := fun p : Nat => 320 * (p / 3) + (#v[0, 107, 214] : Vector Nat 3)[Fin.ofNat 3 p]
  (∀ s : State, s.inReset = false →
    (∀ (r : Record) (rest : List Record), s.status.tx = none → s.status.queue = r :: rest →
      ∃ x : StatusTx, x.record = r ∧ x.overrun = s.status.overrun ∧
        x.bytes.take 5 = [0xA6#8, r.body.code, (if s.status.overrun then 1#8 else 0#8),
          r.cycle.extractLsb' 8 8, r.cycle.extractLsb' 0 8] ∧
        (x.bytes.drop 5).dropLast = r.body.payload ∧
        x.bytes.foldl (· + ·) 0#8 = 0#8 ∧
        (∀ p, x.startBit ≤ p ↔ ∃ q, q ≤ p ∧ s.status.nextFree ≤ q ∧ s.status.bitClock ≤ start q) ∧
        let u := s.elapse ((start x.startBit - s.status.bitClock) / 4)
        exec .statusTransmissionStart s = .next { u with
          status := { u.status with queue := rest, tx := some x, overrun := false } }) ∧
    (s.status.tx ≠ none ∨ s.status.queue = [] → exec .statusTransmissionStart s = .next s) ∧
    (∀ x, s.status.tx = some x →
      let after := x.startBit + 10 * x.bytes.length
      let u := s.elapse ((start after - s.status.bitClock) / 4)
      exec .recordLastStopBit s = .next { u with
        status := { u.status with tx := none, nextFree := after } }) ∧
    (s.status.tx = none → exec .recordLastStopBit s = .next s)) ∧
  ∀ (s : State) (x : StatusTx), s.status.tx = some x →
    (s.status.bitClock < start x.startBit → s.statusHigh = true) ∧
    ∀ (k i : Nat) (b : BitVec 8), x.bytes[k]? = some b → i < 10 →
      start (x.startBit + 10 * k + i) ≤ s.status.bitClock →
      s.status.bitClock < start (x.startBit + 10 * k + i + 1) →
      s.statusHigh = if i = 0 then false else if i = 9 then true else b.getLsbD (i - 1)

/-- A record handed to the status port replaces the queued record of its coalescing key in place, or joins
the tail, or is discarded with the overrun flag set when 16 records wait (R164, R166, R167). Two records
have one key as Table 11-3 says. -/
def Obligations.RecordCoalescesJoinsOrIsLost : Prop :=
  (∀ x y : RecordBody, sameKey x y = true ↔
    (∃ a p q, x = .peer a p ∧ y = .peer a q) ∨ (∃ l o n o' n', x = .repair l o n ∧ y = .repair l o' n') ∨
    (∃ c, x = .clip c ∧ y = .clip c) ∨ (∃ m m', x = .mic m ∧ y = .mic m') ∨
    (∃ st r h st' r' h', x = .sync st r h ∧ y = .sync st' r' h') ∨
    (∃ l o r l' o' r', x = .gate l o r ∧ y = .gate l' o' r') ∨
    (∃ r w r' w', x = .request r w ∧ y = .request r' w') ∨
    (∃ c o m c' o' m', x = .divergence c o m ∧ y = .divergence c' o' m') ∨
    (∃ o pr h u o' pr' h' u', x = .summary o pr h u ∧ y = .summary o' pr' h' u')) ∧
  ∀ (p : StatusPort) (r : Record),
    ((∀ q ∈ p.queue, sameKey q.body r.body = false) → p.queue.length < 16 →
      p.push r = { p with queue := p.queue ++ [r] }) ∧
    ((∀ q ∈ p.queue, sameKey q.body r.body = false) → 16 ≤ p.queue.length →
      p.push r = { p with overrun := true }) ∧
    ∀ (front back : List Record) (q : Record), p.queue = front ++ q :: back →
      (∀ x ∈ front, sameKey x.body r.body = false) → sameKey q.body r.body = true →
      ∃ body, p.push r = { p with queue := front ++ { cycle := r.cycle, body := body } :: back } ∧
        ((∀ o pr h u, r.body ≠ .summary o pr h u) → body = r.body) ∧
        ∀ o pr h u o' pr' h' v, q.body = .summary o pr h u → r.body = .summary o' pr' h' v →
          body = .summary o' pr' h' (u || v)

/-! ## Invariants -/

/-- The state under reset is sound. -/
def Obligations.ResetStateIsSound : Prop := State.reset.Sound

/-- Every step keeps what the sync state says of the node: held in reset, founding only in LISTEN, the
candidate flag (R59), the own peer-table entry (R80), and no own lane and no request outside LOCKED (R107).
-/
def Obligations.EveryStepKeepsMembership : Prop :=
  ∀ s t : State, s.Membership → step s = .next t → t.Membership

/-- Every step keeps the lane table and the slot copy legal, lanes of index M or above FREE and no address
with two lanes, and the own digest that of the table (R84, R99). -/
def Obligations.EveryStepKeepsLaneTablesLegal : Prop :=
  ∀ s t : State, s.TablesSound → step s = .next t → t.TablesSound

/-- Every step keeps at most 16 records in the status queue, no two with one coalescing key (R163). -/
def Obligations.EveryStepKeepsTheStatusQueueBounded : Prop :=
  ∀ s t : State, s.status.Sound → step s = .next t → t.status.Sound

/-- Every step keeps the detector within its ranges, silent with an empty history and score 0, the hangover
counter 0 outside HANGOVER (R25, R27, R28), and its outputs those of its state (R17). -/
def Obligations.EveryStepKeepsTheDetectorSound : Prop :=
  ∀ s t : State, s.detector.Sound → s.detector.Published → step s = .next t →
    t.detector.Sound ∧ t.detector.Published

/-- Every step keeps what waits at the bank arbiter in order: reads in the order of raising, each reader's
in sample order, the detector's only during a processing, the transmitter's only during an own lane frame
(R10, R11). When the readers raise their requests is log entry 20. -/
def Obligations.EveryStepKeepsTheReadsSound : Prop :=
  ∀ s t : State, s.ReadsSound → step s = .next t → t.ReadsSound

/-- Every step keeps every counter of the node within its range (R12, R36, R55, R57, R62, R63, R70, R72,
R77, R88, R120, R123, R145, R153, R156, R167). That a bit time falls on every fourth crystal period of OCLK
is log entry 6. -/
def Obligations.EveryStepKeepsCountersInRange : Prop :=
  ∀ s t : State, s.HeldInReset → s.CountersInRange → step s = .next t → t.CountersInRange
end

