-- ==== Sys2Proof/Laws/Arbiter.lean ====
section
/-! SUPPORT. What the operations of the bank arbiter and the search for a start edge can answer. -/

namespace Sys2Proof.Machine

/-! ## Serving reads -/

/-- The reads that still wait are the last of those that waited. -/
theorem serve_suffix (limit t : Nat) (rs : List BankRead) : serve limit t rs <:+ rs := by
  induction rs generalizing t with
  | nil => exact List.suffix_refl _
  | cons r rest ih =>
    rw [serve]
    split
    · exact (ih _).trans (List.suffix_cons r rest)
    · exact List.suffix_refl _

/-- A read that waits after some time waited before it, and was raised as much earlier. -/
theorem Arbiter.mem_elapse {a : Arbiter} {n : Nat} {r : BankRead} (h : r ∈ (a.elapse n).reads) :
    ∃ x ∈ a.reads, r = { x with due := x.due - n } := by
  obtain ⟨x, hx, rfl⟩ := List.mem_map.mp h
  exact ⟨x, (serve_suffix _ _ _).mem hx, rfl⟩

/-- The reads that wait after some time are the last of those before it, moved on. -/
theorem Arbiter.elapse_waiting (a : Arbiter) (n : Nat) :
    ∃ front back, a.reads = front ++ back ∧
      (a.elapse n).reads = back.map fun r => { r with due := r.due - n } := by
  obtain ⟨front, h⟩ := serve_suffix (opportunities * n) a.write.toNat a.reads
  exact ⟨front, _, h.symm, rfl⟩

/-- When no read of `reader` waits, none has to be waited for. -/
theorem serveTime_none {reader : Reader} {t : Nat} {rs : List BankRead}
    (h : ∀ r ∈ rs, r.reader ≠ reader) : serveTime reader t rs = 0 := by
  induction rs generalizing t with
  | nil => rfl
  | cons r rest ih =>
    rw [serveTime, if_neg (h r (List.mem_cons_self ..)), ih fun x hx => h x (List.mem_cons_of_mem _ hx)]
    rfl

/-! ## Raising reads -/

theorem insertRead_perm (first : Bool) (r : BankRead) (rs : List BankRead) :
    (insertRead first r rs).Perm (r :: rs) := by
  induction rs with
  | nil => exact List.Perm.refl _
  | cons x rest ih =>
    rw [insertRead]
    by_cases hc : if first then r.due ≤ x.due else r.due < x.due
    · rw [if_pos hc]
    · rw [if_neg hc]
      exact (ih.cons x).trans (List.Perm.swap r x rest)

/-- The reads that wait after some are raised are those that waited and those raised. -/
theorem insertReads_perm (first : Bool) (new old : List BankRead) :
    (insertReads first new old).Perm (new ++ old) := by
  unfold insertReads
  split
  · induction new with
    | nil => exact List.Perm.refl _
    | cons r rest ih => exact (insertRead_perm true r _).trans (ih.cons r)
  · induction new generalizing old with
    | nil => exact List.Perm.refl _
    | cons r rest ih =>
      refine (ih _).trans ((List.Perm.append_left rest (insertRead_perm false r old)).trans ?_)
      exact List.perm_middle

theorem mem_insertReads {first : Bool} {new old : List BankRead} {r : BankRead} :
    r ∈ insertReads first new old ↔ r ∈ new ∨ r ∈ old := by
  rw [(insertReads_perm first new old).mem_iff, List.mem_append]

/-- One read joins in the order of raising. -/
theorem insertRead_order (first : Bool) (r : BankRead) {rs : List BankRead}
    (h : rs.Pairwise fun x y => x.due ≤ y.due) :
    (insertRead first r rs).Pairwise fun x y => x.due ≤ y.due := by
  induction rs with
  | nil => exact List.pairwise_singleton _ _
  | cons x rest ih =>
    rw [List.pairwise_cons] at h
    rw [insertRead]
    by_cases hc : if first then r.due ≤ x.due else r.due < x.due
    · have hr : r.due ≤ x.due := by cases first <;> simp at hc <;> omega
      rw [if_pos hc, List.pairwise_cons, List.pairwise_cons]
      refine ⟨fun y hy => ?_, h⟩
      rcases List.mem_cons.mp hy with rfl | hy
      · exact hr
      · exact hr.trans (h.1 y hy)
    · have hx : x.due ≤ r.due := by cases first <;> simp at hc <;> omega
      rw [if_neg hc, List.pairwise_cons]
      refine ⟨fun y hy => ?_, ih h.2⟩
      rcases List.mem_cons.mp ((insertRead_perm first r rest).mem_iff.mp hy) with rfl | hy
      · exact hx
      · exact h.1 y hy

theorem insertReads_order (first : Bool) (new : List BankRead) {old : List BankRead}
    (h : old.Pairwise fun x y => x.due ≤ y.due) :
    (insertReads first new old).Pairwise fun x y => x.due ≤ y.due := by
  unfold insertReads
  split
  · induction new with
    | nil => exact h
    | cons r rest ih => exact insertRead_order true r ih
  · induction new generalizing old with
    | nil => exact h
    | cons r rest ih => exact ih (insertRead_order false r h)

theorem mem_detectorReads {slot : Fin 4} {r : BankRead} :
    r ∈ detectorReads slot ↔ r.reader = .detector ∧ r.slot = slot ∧ r.due = 0 := by
  simp only [detectorReads, List.mem_map, List.mem_finRange, true_and]
  constructor
  · rintro ⟨i, rfl⟩
    exact ⟨rfl, rfl, rfl⟩
  · rintro ⟨h1, h2, h3⟩
    exact ⟨r.position, by cases r; simp_all⟩

theorem mem_transmitterReads {slot : Fin 4} {r : BankRead} :
    r ∈ transmitterReads slot ↔
      r.reader = .transmitter ∧ r.slot = slot ∧ r.due = requestTime r.position := by
  simp only [transmitterReads, List.mem_map, List.mem_finRange, true_and]
  constructor
  · rintro ⟨i, rfl⟩
    exact ⟨rfl, rfl, rfl⟩
  · rintro ⟨h1, h2, h3⟩
    exact ⟨r.position, by cases r; simp_all⟩

/-- After the end of the transmitter's read, what waits is what waited of the detector. -/
theorem Arbiter.mem_endTransmitter {a : Arbiter} {r : BankRead} :
    r ∈ a.endTransmitter.reads ↔ r ∈ a.reads ∧ r.reader ≠ .transmitter := by
  simp [Arbiter.endTransmitter]

/-! ## Start edges -/

/-- A start edge is a dominant reading, and none of the readings that are skipped. -/
theorem firstEdge_some {skip quiet e : Nat} {rs : List Bool} (h : firstEdge skip quiet rs = some e) :
    rs[e]? = some false ∧ skip ≤ e := by
  induction rs generalizing skip quiet e with
  | nil => cases skip <;> simp [firstEdge] at h
  | cons b rest ih =>
    rcases skip with - | skip
    · cases b with
      | true =>
        simp only [firstEdge, Option.map_eq_some_iff] at h
        obtain ⟨k, hk, rfl⟩ := h
        exact ⟨by simpa using (ih hk).1, Nat.zero_le _⟩
      | false =>
        simp only [firstEdge] at h
        split at h
        · cases h
          exact ⟨rfl, Nat.le_refl _⟩
        · obtain ⟨k, hk, rfl⟩ := Option.map_eq_some_iff.mp h
          exact ⟨by simpa using (ih hk).1, Nat.zero_le _⟩
    · simp only [firstEdge, Option.map_eq_some_iff] at h
      obtain ⟨k, hk, rfl⟩ := h
      exact ⟨by simpa using (ih hk).1, by have := (ih hk).2; omega⟩

/-- The first start edge of a slot lies in its span. -/
theorem slotEdge_lt {rx : SlotRx} {opens free span e : Nat} (h : slotEdge rx opens free span = some e) :
    e < span ∧ rx.readings[e]? = some false ∧ free ≤ opens + e := by
  obtain ⟨h1, h2⟩ := firstEdge_some h
  rw [List.getElem?_take] at h1
  split at h1
  · exact ⟨‹_›, h1, by omega⟩
  · cases h1

end Sys2Proof.Machine
end

