-- ==== Sys2Proof/Laws/State.lean ====
section
/-! SUPPORT. One lemma per field per update of the state record, true by `rfl`. -/

namespace Sys2Proof.Machine

/-! ### State.elapse -/

@[simp] theorem State.elapse_inReset (n : Nat) (s : State) : (s.elapse n).inReset = s.inReset := rfl
@[simp] theorem State.elapse_capture (n : Nat) (s : State) : (s.elapse n).capture = s.capture := rfl
@[simp] theorem State.elapse_arbiter (n : Nat) (s : State) :
    (s.elapse n).arbiter = s.arbiter.elapse n := rfl
@[simp] theorem State.elapse_detector (n : Nat) (s : State) :
    (s.elapse n).detector = s.detector := rfl
@[simp] theorem State.elapse_line (n : Nat) (s : State) : (s.elapse n).line = s.line.elapse n := rfl
@[simp] theorem State.elapse_beat (n : Nat) (s : State) : (s.elapse n).beat = s.beat.elapse n := rfl
@[simp] theorem State.elapse_census (n : Nat) (s : State) : (s.elapse n).census = s.census := rfl
@[simp] theorem State.elapse_lanes (n : Nat) (s : State) : (s.elapse n).lanes = s.lanes := rfl
@[simp] theorem State.elapse_audio (n : Nat) (s : State) : (s.elapse n).audio = s.audio := rfl
@[simp] theorem State.elapse_mix (n : Nat) (s : State) : (s.elapse n).mix = s.mix.elapse n := rfl
@[simp] theorem State.elapse_keys (n : Nat) (s : State) : (s.elapse n).keys = s.keys := rfl
@[simp] theorem State.elapse_status (n : Nat) (s : State) :
    (s.elapse n).status = s.status.elapse n := rfl
@[simp] theorem State.elapse_cycleStarts (n : Nat) (s : State) :
    (s.elapse n).cycleStarts = s.cycleStarts := rfl
@[simp] theorem State.elapse_pending (n : Nat) (s : State) : (s.elapse n).pending = s.pending := rfl
@[simp] theorem State.elapse_own (n : Nat) (s : State) : (s.elapse n).own = s.own := rfl
@[simp] theorem State.elapse_role (n : Nat) (s : State) : (s.elapse n).role = s.role := rfl
@[simp] theorem State.elapse_laneCount (n : Nat) (s : State) :
    (s.elapse n).laneCount = s.laneCount := rfl

/-! ### State.elapseTo -/

@[simp] theorem State.elapseTo_inReset (p : Nat) (s : State) :
    (s.elapseTo p).inReset = s.inReset := rfl
@[simp] theorem State.elapseTo_capture (p : Nat) (s : State) :
    (s.elapseTo p).capture = s.capture := rfl
@[simp] theorem State.elapseTo_arbiter (p : Nat) (s : State) :
    (s.elapseTo p).arbiter = s.arbiter.elapse (p - s.beat.timer) := rfl
@[simp] theorem State.elapseTo_detector (p : Nat) (s : State) :
    (s.elapseTo p).detector = s.detector := rfl
@[simp] theorem State.elapseTo_line (p : Nat) (s : State) :
    (s.elapseTo p).line = s.line.elapse (p - s.beat.timer) := rfl
@[simp] theorem State.elapseTo_beat (p : Nat) (s : State) :
    (s.elapseTo p).beat = s.beat.elapse (p - s.beat.timer) := rfl
@[simp] theorem State.elapseTo_census (p : Nat) (s : State) :
    (s.elapseTo p).census = s.census := rfl
@[simp] theorem State.elapseTo_lanes (p : Nat) (s : State) : (s.elapseTo p).lanes = s.lanes := rfl
@[simp] theorem State.elapseTo_audio (p : Nat) (s : State) : (s.elapseTo p).audio = s.audio := rfl
@[simp] theorem State.elapseTo_mix (p : Nat) (s : State) :
    (s.elapseTo p).mix = s.mix.elapse (p - s.beat.timer) := rfl
@[simp] theorem State.elapseTo_keys (p : Nat) (s : State) : (s.elapseTo p).keys = s.keys := rfl
@[simp] theorem State.elapseTo_status (p : Nat) (s : State) :
    (s.elapseTo p).status = s.status.elapse (p - s.beat.timer) := rfl
@[simp] theorem State.elapseTo_cycleStarts (p : Nat) (s : State) :
    (s.elapseTo p).cycleStarts = s.cycleStarts := rfl
@[simp] theorem State.elapseTo_pending (p : Nat) (s : State) :
    (s.elapseTo p).pending = s.pending := rfl
@[simp] theorem State.elapseTo_own (p : Nat) (s : State) : (s.elapseTo p).own = s.own := rfl
@[simp] theorem State.elapseTo_role (p : Nat) (s : State) : (s.elapseTo p).role = s.role := rfl
@[simp] theorem State.elapseTo_laneCount (p : Nat) (s : State) :
    (s.elapseTo p).laneCount = s.laneCount := rfl

/-! ### State.raise -/

@[simp] theorem State.raise_inReset (bs : List RecordBody) (s : State) :
    (s.raise bs).inReset = s.inReset := rfl
@[simp] theorem State.raise_capture (bs : List RecordBody) (s : State) :
    (s.raise bs).capture = s.capture := rfl
@[simp] theorem State.raise_arbiter (bs : List RecordBody) (s : State) :
    (s.raise bs).arbiter = s.arbiter := rfl
@[simp] theorem State.raise_detector (bs : List RecordBody) (s : State) :
    (s.raise bs).detector = s.detector := rfl
@[simp] theorem State.raise_line (bs : List RecordBody) (s : State) :
    (s.raise bs).line = s.line := rfl
@[simp] theorem State.raise_beat (bs : List RecordBody) (s : State) :
    (s.raise bs).beat = s.beat := rfl
@[simp] theorem State.raise_census (bs : List RecordBody) (s : State) :
    (s.raise bs).census = s.census := rfl
@[simp] theorem State.raise_lanes (bs : List RecordBody) (s : State) :
    (s.raise bs).lanes = s.lanes := rfl
@[simp] theorem State.raise_audio (bs : List RecordBody) (s : State) :
    (s.raise bs).audio = s.audio := rfl
@[simp] theorem State.raise_mix (bs : List RecordBody) (s : State) : (s.raise bs).mix = s.mix := rfl
@[simp] theorem State.raise_keys (bs : List RecordBody) (s : State) :
    (s.raise bs).keys = s.keys := rfl
@[simp] theorem State.raise_status (bs : List RecordBody) (s : State) :
    (s.raise bs).status = s.status.pushAll s.beat.cycle bs := rfl
@[simp] theorem State.raise_cycleStarts (bs : List RecordBody) (s : State) :
    (s.raise bs).cycleStarts = s.cycleStarts := rfl
@[simp] theorem State.raise_pending (bs : List RecordBody) (s : State) :
    (s.raise bs).pending = s.pending := rfl
@[simp] theorem State.raise_own (bs : List RecordBody) (s : State) : (s.raise bs).own = s.own := rfl
@[simp] theorem State.raise_role (bs : List RecordBody) (s : State) :
    (s.raise bs).role = s.role := rfl
@[simp] theorem State.raise_laneCount (bs : List RecordBody) (s : State) :
    (s.raise bs).laneCount = s.laneCount := rfl

/-! ### State.setSync -/

@[simp] theorem State.setSync_inReset (new : SyncState) (s : State) :
    (s.setSync new).inReset = s.inReset := rfl
@[simp] theorem State.setSync_capture (new : SyncState) (s : State) :
    (s.setSync new).capture = s.capture := rfl
@[simp] theorem State.setSync_arbiter (new : SyncState) (s : State) :
    (s.setSync new).arbiter = s.arbiter := rfl
@[simp] theorem State.setSync_detector (new : SyncState) (s : State) :
    (s.setSync new).detector = s.detector := rfl
@[simp] theorem State.setSync_line (new : SyncState) (s : State) :
    (s.setSync new).line = s.line := rfl
@[simp] theorem State.setSync_beat_sync (new : SyncState) (s : State) :
    (s.setSync new).beat.sync = new := rfl
@[simp] theorem State.setSync_beat_timer (new : SyncState) (s : State) :
    (s.setSync new).beat.timer = s.beat.timer := rfl
@[simp] theorem State.setSync_beat_cycle (new : SyncState) (s : State) :
    (s.setSync new).beat.cycle = s.beat.cycle := rfl
@[simp] theorem State.setSync_beat_holder (new : SyncState) (s : State) :
    (s.setSync new).beat.holder = s.beat.holder := rfl
@[simp] theorem State.setSync_beat_rank (new : SyncState) (s : State) :
    (s.setSync new).beat.rank = s.beat.rank := rfl
@[simp] theorem State.setSync_beat_candidate (new : SyncState) (s : State) :
    (s.setSync new).beat.candidate = (decide (new = .locked) && decide (s.beat.barred = 0)) := rfl
@[simp] theorem State.setSync_beat_holderCond (new : SyncState) (s : State) :
    (s.setSync new).beat.holderCond = s.beat.holderCond := rfl
@[simp] theorem State.setSync_beat_barred (new : SyncState) (s : State) :
    (s.setSync new).beat.barred = s.beat.barred := rfl
@[simp] theorem State.setSync_beat_failures (new : SyncState) (s : State) :
    (s.setSync new).beat.failures = s.beat.failures := rfl
@[simp] theorem State.setSync_beat_coldStart (new : SyncState) (s : State) :
    (s.setSync new).beat.coldStart = s.beat.coldStart := rfl
@[simp] theorem State.setSync_beat_obsCount (new : SyncState) (s : State) :
    (s.setSync new).beat.obsCount = s.beat.obsCount := rfl
@[simp] theorem State.setSync_beat_entCount (new : SyncState) (s : State) :
    (s.setSync new).beat.entCount = s.beat.entCount := rfl
@[simp] theorem State.setSync_beat_firstBeat (new : SyncState) (s : State) :
    (s.setSync new).beat.firstBeat = s.beat.firstBeat := rfl
@[simp] theorem State.setSync_beat_waitOpen (new : SyncState) (s : State) :
    (s.setSync new).beat.waitOpen = s.beat.waitOpen := rfl
@[simp] theorem State.setSync_beat_request (new : SyncState) (s : State) :
    (s.setSync new).beat.request = s.beat.request := rfl
@[simp] theorem State.setSync_beat_takerAt (new : SyncState) (s : State) :
    (s.setSync new).beat.takerAt = s.beat.takerAt := rfl
@[simp] theorem State.setSync_census_peers (new : SyncState) (s : State) :
    (s.setSync new).census.peers = put s.census.peers s.own (ownEntry new) := rfl
@[simp] theorem State.setSync_census_entries (new : SyncState) (s : State) :
    (s.setSync new).census.entries = s.census.entries := rfl
@[simp] theorem State.setSync_census_readback (new : SyncState) (s : State) :
    (s.setSync new).census.readback = s.census.readback := rfl
@[simp] theorem State.setSync_census_ownCollisions (new : SyncState) (s : State) :
    (s.setSync new).census.ownCollisions = s.census.ownCollisions := rfl
@[simp] theorem State.setSync_census_conflictWait (new : SyncState) (s : State) :
    (s.setSync new).census.conflictWait = s.census.conflictWait := rfl
@[simp] theorem State.setSync_census_reportTx (new : SyncState) (s : State) :
    (s.setSync new).census.reportTx = s.census.reportTx := rfl
@[simp] theorem State.setSync_lanes (new : SyncState) (s : State) :
    (s.setSync new).lanes = s.lanes := rfl
@[simp] theorem State.setSync_audio (new : SyncState) (s : State) :
    (s.setSync new).audio = s.audio := rfl
@[simp] theorem State.setSync_mix (new : SyncState) (s : State) : (s.setSync new).mix = s.mix := rfl
@[simp] theorem State.setSync_keys (new : SyncState) (s : State) :
    (s.setSync new).keys = s.keys.onSync s.beat.sync new := rfl
@[simp] theorem State.setSync_status (new : SyncState) (s : State) :
    (s.setSync new).status = s.status := rfl
@[simp] theorem State.setSync_cycleStarts (new : SyncState) (s : State) :
    (s.setSync new).cycleStarts = s.cycleStarts := rfl
@[simp] theorem State.setSync_pending (new : SyncState) (s : State) :
    (s.setSync new).pending = s.pending := rfl

/-! ### State.dropLaneTx -/

@[simp] theorem State.dropLaneTx_inReset (s : State) : (s.dropLaneTx).inReset = s.inReset := rfl
@[simp] theorem State.dropLaneTx_capture (s : State) : (s.dropLaneTx).capture = s.capture := rfl
@[simp] theorem State.dropLaneTx_arbiter (s : State) :
    (s.dropLaneTx).arbiter = s.arbiter.endTransmitter := rfl
@[simp] theorem State.dropLaneTx_detector (s : State) : (s.dropLaneTx).detector = s.detector := rfl
@[simp] theorem State.dropLaneTx_line (s : State) : (s.dropLaneTx).line = s.line.stopLane := rfl
@[simp] theorem State.dropLaneTx_beat (s : State) : (s.dropLaneTx).beat = s.beat := rfl
@[simp] theorem State.dropLaneTx_census (s : State) : (s.dropLaneTx).census = s.census := rfl
@[simp] theorem State.dropLaneTx_lanes (s : State) : (s.dropLaneTx).lanes = s.lanes := rfl
@[simp] theorem State.dropLaneTx_audio_tx (s : State) : (s.dropLaneTx).audio.tx = none := rfl
@[simp] theorem State.dropLaneTx_audio_lanes (s : State) :
    (s.dropLaneTx).audio.lanes = s.audio.lanes := rfl
@[simp] theorem State.dropLaneTx_audio_unlisted (s : State) :
    (s.dropLaneTx).audio.unlisted = s.audio.unlisted := rfl
@[simp] theorem State.dropLaneTx_mix (s : State) : (s.dropLaneTx).mix = s.mix := rfl
@[simp] theorem State.dropLaneTx_keys (s : State) : (s.dropLaneTx).keys = s.keys := rfl
@[simp] theorem State.dropLaneTx_status (s : State) : (s.dropLaneTx).status = s.status := rfl
@[simp] theorem State.dropLaneTx_cycleStarts (s : State) :
    (s.dropLaneTx).cycleStarts = s.cycleStarts := rfl
@[simp] theorem State.dropLaneTx_pending (s : State) : (s.dropLaneTx).pending = s.pending := rfl
@[simp] theorem State.dropLaneTx_own (s : State) : (s.dropLaneTx).own = s.own := rfl
@[simp] theorem State.dropLaneTx_role (s : State) : (s.dropLaneTx).role = s.role := rfl
@[simp] theorem State.dropLaneTx_laneCount (s : State) :
    (s.dropLaneTx).laneCount = s.laneCount := rfl

/-! ### State.dropCandidate -/

@[simp] theorem State.dropCandidate_inReset (s : State) :
    (s.dropCandidate).inReset = s.inReset := rfl
@[simp] theorem State.dropCandidate_capture (s : State) :
    (s.dropCandidate).capture = s.capture := rfl
@[simp] theorem State.dropCandidate_arbiter (s : State) :
    (s.dropCandidate).arbiter = s.arbiter := rfl
@[simp] theorem State.dropCandidate_detector (s : State) :
    (s.dropCandidate).detector = s.detector := rfl
@[simp] theorem State.dropCandidate_line_tx (s : State) :
    (s.dropCandidate).line.tx = s.line.tx := rfl
@[simp] theorem State.dropCandidate_line_stopped (s : State) :
    (s.dropCandidate).line.stopped = s.line.stopped := rfl
@[simp] theorem State.dropCandidate_line_candidate (s : State) :
    (s.dropCandidate).line.candidate = none := rfl
@[simp] theorem State.dropCandidate_line_beatQuiet (s : State) :
    (s.dropCandidate).line.beatQuiet = 0 := rfl
@[simp] theorem State.dropCandidate_line_slotFree (s : State) :
    (s.dropCandidate).line.slotFree = s.line.slotFree := rfl
@[simp] theorem State.dropCandidate_line_reportSpans (s : State) :
    (s.dropCandidate).line.reportSpans = s.line.reportSpans := rfl
@[simp] theorem State.dropCandidate_line_laneSpans (s : State) :
    (s.dropCandidate).line.laneSpans = s.line.laneSpans := rfl
@[simp] theorem State.dropCandidate_beat (s : State) : (s.dropCandidate).beat = s.beat := rfl
@[simp] theorem State.dropCandidate_census (s : State) : (s.dropCandidate).census = s.census := rfl
@[simp] theorem State.dropCandidate_lanes (s : State) : (s.dropCandidate).lanes = s.lanes := rfl
@[simp] theorem State.dropCandidate_audio (s : State) : (s.dropCandidate).audio = s.audio := rfl
@[simp] theorem State.dropCandidate_mix (s : State) : (s.dropCandidate).mix = s.mix := rfl
@[simp] theorem State.dropCandidate_keys (s : State) : (s.dropCandidate).keys = s.keys := rfl
@[simp] theorem State.dropCandidate_status (s : State) : (s.dropCandidate).status = s.status := rfl
@[simp] theorem State.dropCandidate_cycleStarts (s : State) :
    (s.dropCandidate).cycleStarts = s.cycleStarts := rfl
@[simp] theorem State.dropCandidate_pending (s : State) :
    (s.dropCandidate).pending = s.pending := rfl
@[simp] theorem State.dropCandidate_own (s : State) : (s.dropCandidate).own = s.own := rfl
@[simp] theorem State.dropCandidate_role (s : State) : (s.dropCandidate).role = s.role := rfl
@[simp] theorem State.dropCandidate_laneCount (s : State) :
    (s.dropCandidate).laneCount = s.laneCount := rfl

/-! ### State.endBeat -/

@[simp] theorem State.endBeat_inReset (s : State) : (s.endBeat).inReset = s.inReset := rfl
@[simp] theorem State.endBeat_capture (s : State) : (s.endBeat).capture = s.capture := rfl
@[simp] theorem State.endBeat_arbiter (s : State) : (s.endBeat).arbiter = s.arbiter := rfl
@[simp] theorem State.endBeat_detector (s : State) : (s.endBeat).detector = s.detector := rfl
@[simp] theorem State.endBeat_line_tx (s : State) :
    (s.endBeat).line.tx = (s.line.tx.filter fun t => decide (t.kind ≠ .beat)) := rfl
@[simp] theorem State.endBeat_line_stopped (s : State) :
    (s.endBeat).line.stopped = s.line.stopped := rfl
@[simp] theorem State.endBeat_line_candidate (s : State) :
    (s.endBeat).line.candidate = s.line.candidate := rfl
@[simp] theorem State.endBeat_line_beatQuiet (s : State) : (s.endBeat).line.beatQuiet = 0 := rfl
@[simp] theorem State.endBeat_line_slotFree (s : State) :
    (s.endBeat).line.slotFree = s.line.slotFree := rfl
@[simp] theorem State.endBeat_line_reportSpans (s : State) :
    (s.endBeat).line.reportSpans = s.line.reportSpans := rfl
@[simp] theorem State.endBeat_line_laneSpans (s : State) :
    (s.endBeat).line.laneSpans = s.line.laneSpans := rfl
@[simp] theorem State.endBeat_beat_sync (s : State) : (s.endBeat).beat.sync = s.beat.sync := rfl
@[simp] theorem State.endBeat_beat_timer (s : State) : (s.endBeat).beat.timer = s.beat.timer := rfl
@[simp] theorem State.endBeat_beat_cycle (s : State) : (s.endBeat).beat.cycle = s.beat.cycle := rfl
@[simp] theorem State.endBeat_beat_holder (s : State) :
    (s.endBeat).beat.holder = s.beat.holder := rfl
@[simp] theorem State.endBeat_beat_rank (s : State) : (s.endBeat).beat.rank = s.beat.rank := rfl
@[simp] theorem State.endBeat_beat_candidate (s : State) :
    (s.endBeat).beat.candidate = s.beat.candidate := rfl
@[simp] theorem State.endBeat_beat_holderCond (s : State) :
    (s.endBeat).beat.holderCond = s.beat.holderCond := rfl
@[simp] theorem State.endBeat_beat_barred (s : State) :
    (s.endBeat).beat.barred = s.beat.barred := rfl
@[simp] theorem State.endBeat_beat_failures (s : State) :
    (s.endBeat).beat.failures = s.beat.failures := rfl
@[simp] theorem State.endBeat_beat_coldStart (s : State) :
    (s.endBeat).beat.coldStart = s.beat.coldStart := rfl
@[simp] theorem State.endBeat_beat_obsCount (s : State) :
    (s.endBeat).beat.obsCount = s.beat.obsCount := rfl
@[simp] theorem State.endBeat_beat_entCount (s : State) :
    (s.endBeat).beat.entCount = s.beat.entCount := rfl
@[simp] theorem State.endBeat_beat_firstBeat (s : State) :
    (s.endBeat).beat.firstBeat = s.beat.firstBeat := rfl
@[simp] theorem State.endBeat_beat_waitOpen (s : State) :
    (s.endBeat).beat.waitOpen = s.beat.waitOpen := rfl
@[simp] theorem State.endBeat_beat_request (s : State) : (s.endBeat).beat.request = .idle := rfl
@[simp] theorem State.endBeat_beat_takerAt (s : State) :
    (s.endBeat).beat.takerAt = s.beat.takerAt := rfl
@[simp] theorem State.endBeat_census (s : State) : (s.endBeat).census = s.census := rfl
@[simp] theorem State.endBeat_lanes (s : State) : (s.endBeat).lanes = s.lanes := rfl
@[simp] theorem State.endBeat_audio (s : State) : (s.endBeat).audio = s.audio := rfl
@[simp] theorem State.endBeat_mix (s : State) : (s.endBeat).mix = s.mix := rfl
@[simp] theorem State.endBeat_keys (s : State) : (s.endBeat).keys = s.keys := rfl
@[simp] theorem State.endBeat_status (s : State) : (s.endBeat).status = s.status := rfl
@[simp] theorem State.endBeat_cycleStarts (s : State) :
    (s.endBeat).cycleStarts = s.cycleStarts := rfl
@[simp] theorem State.endBeat_pending (s : State) : (s.endBeat).pending = s.pending := rfl
@[simp] theorem State.endBeat_own (s : State) : (s.endBeat).own = s.own := rfl
@[simp] theorem State.endBeat_role (s : State) : (s.endBeat).role = s.role := rfl
@[simp] theorem State.endBeat_laneCount (s : State) : (s.endBeat).laneCount = s.laneCount := rfl

/-! ### State.startLane -/

@[simp] theorem State.startLane_inReset (l : Lane) (s : State) :
    (s.startLane l).inReset = s.inReset := rfl
@[simp] theorem State.startLane_capture (l : Lane) (s : State) :
    (s.startLane l).capture = s.capture := rfl
@[simp] theorem State.startLane_arbiter (l : Lane) (s : State) :
    (s.startLane l).arbiter = s.arbiter.endTransmitter.raiseTransmitter (!Config.detectorFirst s.cycleStarts) (s.capture.fill - 3) := rfl
@[simp] theorem State.startLane_detector (l : Lane) (s : State) :
    (s.startLane l).detector = s.detector := rfl
@[simp] theorem State.startLane_line_tx (l : Lane) (s : State) :
    (s.startLane l).line.tx = some { kind := .lane, bits := encodeLane (s.ownLaneFrame l), sent := 0 } := rfl
@[simp] theorem State.startLane_line_stopped (l : Lane) (s : State) :
    (s.startLane l).line.stopped = s.line.stopped := rfl
@[simp] theorem State.startLane_line_candidate (l : Lane) (s : State) :
    (s.startLane l).line.candidate = s.line.candidate := rfl
@[simp] theorem State.startLane_line_beatQuiet (l : Lane) (s : State) :
    (s.startLane l).line.beatQuiet = s.line.beatQuiet := rfl
@[simp] theorem State.startLane_line_slotFree (l : Lane) (s : State) :
    (s.startLane l).line.slotFree = s.line.slotFree := rfl
@[simp] theorem State.startLane_line_reportSpans (l : Lane) (s : State) :
    (s.startLane l).line.reportSpans = s.line.reportSpans := rfl
@[simp] theorem State.startLane_line_laneSpans (l : Lane) (s : State) :
    (s.startLane l).line.laneSpans = s.line.laneSpans := rfl
@[simp] theorem State.startLane_beat (l : Lane) (s : State) : (s.startLane l).beat = s.beat := rfl
@[simp] theorem State.startLane_census (l : Lane) (s : State) :
    (s.startLane l).census = s.census := rfl
@[simp] theorem State.startLane_lanes (l : Lane) (s : State) :
    (s.startLane l).lanes = s.lanes := rfl
@[simp] theorem State.startLane_audio_tx (l : Lane) (s : State) :
    (s.startLane l).audio.tx = some (s.ownLaneFrame l) := rfl
@[simp] theorem State.startLane_audio_lanes (l : Lane) (s : State) :
    (s.startLane l).audio.lanes = s.audio.lanes := rfl
@[simp] theorem State.startLane_audio_unlisted (l : Lane) (s : State) :
    (s.startLane l).audio.unlisted = s.audio.unlisted := rfl
@[simp] theorem State.startLane_mix (l : Lane) (s : State) : (s.startLane l).mix = s.mix := rfl
@[simp] theorem State.startLane_keys (l : Lane) (s : State) : (s.startLane l).keys = s.keys := rfl
@[simp] theorem State.startLane_status (l : Lane) (s : State) :
    (s.startLane l).status = s.status := rfl
@[simp] theorem State.startLane_cycleStarts (l : Lane) (s : State) :
    (s.startLane l).cycleStarts = s.cycleStarts := rfl
@[simp] theorem State.startLane_pending (l : Lane) (s : State) :
    (s.startLane l).pending = s.pending := rfl
@[simp] theorem State.startLane_own (l : Lane) (s : State) : (s.startLane l).own = s.own := rfl
@[simp] theorem State.startLane_role (l : Lane) (s : State) : (s.startLane l).role = s.role := rfl
@[simp] theorem State.startLane_laneCount (l : Lane) (s : State) :
    (s.startLane l).laneCount = s.laneCount := rfl

/-! ### State.endLane -/

@[simp] theorem State.endLane_inReset (s : State) : (s.endLane).inReset = s.inReset := rfl
@[simp] theorem State.endLane_capture (s : State) : (s.endLane).capture = s.capture := rfl
@[simp] theorem State.endLane_arbiter (s : State) :
    (s.endLane).arbiter = s.arbiter.endTransmitter := rfl
@[simp] theorem State.endLane_detector (s : State) : (s.endLane).detector = s.detector := rfl
@[simp] theorem State.endLane_line_tx (s : State) :
    (s.endLane).line.tx = (s.line.tx.filter fun t => decide (t.kind ≠ .lane)) := rfl
@[simp] theorem State.endLane_line_stopped (s : State) :
    (s.endLane).line.stopped = s.line.stopped := rfl
@[simp] theorem State.endLane_line_candidate (s : State) :
    (s.endLane).line.candidate = s.line.candidate := rfl
@[simp] theorem State.endLane_line_beatQuiet (s : State) :
    (s.endLane).line.beatQuiet = s.line.beatQuiet := rfl
@[simp] theorem State.endLane_line_slotFree (s : State) :
    (s.endLane).line.slotFree = s.line.slotFree := rfl
@[simp] theorem State.endLane_line_reportSpans (s : State) :
    (s.endLane).line.reportSpans = s.line.reportSpans := rfl
@[simp] theorem State.endLane_line_laneSpans (s : State) :
    (s.endLane).line.laneSpans = s.line.laneSpans := rfl
@[simp] theorem State.endLane_beat (s : State) : (s.endLane).beat = s.beat := rfl
@[simp] theorem State.endLane_census (s : State) : (s.endLane).census = s.census := rfl
@[simp] theorem State.endLane_lanes (s : State) : (s.endLane).lanes = s.lanes := rfl
@[simp] theorem State.endLane_audio_tx (s : State) : (s.endLane).audio.tx = none := rfl
@[simp] theorem State.endLane_audio_lanes (s : State) :
    (s.endLane).audio.lanes = s.audio.lanes := rfl
@[simp] theorem State.endLane_audio_unlisted (s : State) :
    (s.endLane).audio.unlisted = s.audio.unlisted := rfl
@[simp] theorem State.endLane_mix (s : State) : (s.endLane).mix = s.mix := rfl
@[simp] theorem State.endLane_keys (s : State) : (s.endLane).keys = s.keys := rfl
@[simp] theorem State.endLane_status (s : State) : (s.endLane).status = s.status := rfl
@[simp] theorem State.endLane_cycleStarts (s : State) :
    (s.endLane).cycleStarts = s.cycleStarts := rfl
@[simp] theorem State.endLane_pending (s : State) : (s.endLane).pending = s.pending := rfl
@[simp] theorem State.endLane_own (s : State) : (s.endLane).own = s.own := rfl
@[simp] theorem State.endLane_role (s : State) : (s.endLane).role = s.role := rfl
@[simp] theorem State.endLane_laneCount (s : State) : (s.endLane).laneCount = s.laneCount := rfl

/-! ### State.bar -/

@[simp] theorem State.bar_inReset (s : State) : (s.bar).inReset = s.inReset := rfl
@[simp] theorem State.bar_capture (s : State) : (s.bar).capture = s.capture := rfl
@[simp] theorem State.bar_arbiter (s : State) : (s.bar).arbiter = s.arbiter := rfl
@[simp] theorem State.bar_detector (s : State) : (s.bar).detector = s.detector := rfl
@[simp] theorem State.bar_line (s : State) : (s.bar).line = s.line := rfl
@[simp] theorem State.bar_beat_sync (s : State) : (s.bar).beat.sync = s.beat.sync := rfl
@[simp] theorem State.bar_beat_timer (s : State) : (s.bar).beat.timer = s.beat.timer := rfl
@[simp] theorem State.bar_beat_cycle (s : State) : (s.bar).beat.cycle = s.beat.cycle := rfl
@[simp] theorem State.bar_beat_holder (s : State) : (s.bar).beat.holder = s.beat.holder := rfl
@[simp] theorem State.bar_beat_rank (s : State) : (s.bar).beat.rank = s.beat.rank := rfl
@[simp] theorem State.bar_beat_candidate (s : State) : (s.bar).beat.candidate = false := rfl
@[simp] theorem State.bar_beat_holderCond (s : State) :
    (s.bar).beat.holderCond = s.beat.holderCond := rfl
@[simp] theorem State.bar_beat_barred (s : State) : (s.bar).beat.barred = barCycles := rfl
@[simp] theorem State.bar_beat_failures (s : State) : (s.bar).beat.failures = s.beat.failures := rfl
@[simp] theorem State.bar_beat_coldStart (s : State) :
    (s.bar).beat.coldStart = s.beat.coldStart := rfl
@[simp] theorem State.bar_beat_obsCount (s : State) : (s.bar).beat.obsCount = s.beat.obsCount := rfl
@[simp] theorem State.bar_beat_entCount (s : State) : (s.bar).beat.entCount = s.beat.entCount := rfl
@[simp] theorem State.bar_beat_firstBeat (s : State) :
    (s.bar).beat.firstBeat = s.beat.firstBeat := rfl
@[simp] theorem State.bar_beat_waitOpen (s : State) : (s.bar).beat.waitOpen = s.beat.waitOpen := rfl
@[simp] theorem State.bar_beat_request (s : State) : (s.bar).beat.request = s.beat.request := rfl
@[simp] theorem State.bar_beat_takerAt (s : State) : (s.bar).beat.takerAt = s.beat.takerAt := rfl
@[simp] theorem State.bar_census (s : State) : (s.bar).census = s.census := rfl
@[simp] theorem State.bar_lanes (s : State) : (s.bar).lanes = s.lanes := rfl
@[simp] theorem State.bar_audio (s : State) : (s.bar).audio = s.audio := rfl
@[simp] theorem State.bar_mix (s : State) : (s.bar).mix = s.mix := rfl
@[simp] theorem State.bar_keys (s : State) : (s.bar).keys = s.keys := rfl
@[simp] theorem State.bar_status (s : State) : (s.bar).status = s.status := rfl
@[simp] theorem State.bar_cycleStarts (s : State) : (s.bar).cycleStarts = s.cycleStarts := rfl
@[simp] theorem State.bar_pending (s : State) : (s.bar).pending = s.pending := rfl
@[simp] theorem State.bar_own (s : State) : (s.bar).own = s.own := rfl
@[simp] theorem State.bar_role (s : State) : (s.bar).role = s.role := rfl
@[simp] theorem State.bar_laneCount (s : State) : (s.bar).laneCount = s.laneCount := rfl

/-! ### State.refound -/

@[simp] theorem State.refound_inReset (s : State) : (s.refound).inReset = s.inReset := rfl
@[simp] theorem State.refound_capture (s : State) : (s.refound).capture = s.capture := rfl
@[simp] theorem State.refound_arbiter (s : State) : (s.refound).arbiter = s.arbiter := rfl
@[simp] theorem State.refound_detector (s : State) : (s.refound).detector = s.detector := rfl
@[simp] theorem State.refound_line (s : State) : (s.refound).line = s.line := rfl
@[simp] theorem State.refound_beat_sync (s : State) : (s.refound).beat.sync = s.beat.sync := rfl
@[simp] theorem State.refound_beat_timer (s : State) : (s.refound).beat.timer = s.beat.timer := rfl
@[simp] theorem State.refound_beat_cycle (s : State) : (s.refound).beat.cycle = s.beat.cycle := rfl
@[simp] theorem State.refound_beat_holder (s : State) :
    (s.refound).beat.holder = s.beat.holder := rfl
@[simp] theorem State.refound_beat_rank (s : State) : (s.refound).beat.rank = s.beat.rank := rfl
@[simp] theorem State.refound_beat_candidate (s : State) :
    (s.refound).beat.candidate = s.beat.candidate := rfl
@[simp] theorem State.refound_beat_holderCond (s : State) :
    (s.refound).beat.holderCond = s.beat.holderCond := rfl
@[simp] theorem State.refound_beat_barred (s : State) :
    (s.refound).beat.barred = s.beat.barred := rfl
@[simp] theorem State.refound_beat_failures (s : State) :
    (s.refound).beat.failures = s.beat.failures := rfl
@[simp] theorem State.refound_beat_coldStart (s : State) :
    (s.refound).beat.coldStart = some (coldStartDelay s.own.val) := rfl
@[simp] theorem State.refound_beat_obsCount (s : State) :
    (s.refound).beat.obsCount = s.beat.obsCount := rfl
@[simp] theorem State.refound_beat_entCount (s : State) :
    (s.refound).beat.entCount = s.beat.entCount := rfl
@[simp] theorem State.refound_beat_firstBeat (s : State) :
    (s.refound).beat.firstBeat = s.beat.firstBeat := rfl
@[simp] theorem State.refound_beat_waitOpen (s : State) :
    (s.refound).beat.waitOpen = s.beat.waitOpen := rfl
@[simp] theorem State.refound_beat_request (s : State) :
    (s.refound).beat.request = s.beat.request := rfl
@[simp] theorem State.refound_beat_takerAt (s : State) :
    (s.refound).beat.takerAt = s.beat.takerAt := rfl
@[simp] theorem State.refound_census (s : State) : (s.refound).census = s.census := rfl
@[simp] theorem State.refound_lanes (s : State) : (s.refound).lanes = s.lanes := rfl
@[simp] theorem State.refound_audio (s : State) : (s.refound).audio = s.audio := rfl
@[simp] theorem State.refound_mix (s : State) : (s.refound).mix = s.mix := rfl
@[simp] theorem State.refound_keys (s : State) : (s.refound).keys = s.keys := rfl
@[simp] theorem State.refound_status (s : State) : (s.refound).status = s.status := rfl
@[simp] theorem State.refound_cycleStarts (s : State) :
    (s.refound).cycleStarts = s.cycleStarts := rfl
@[simp] theorem State.refound_pending (s : State) : (s.refound).pending = s.pending := rfl
@[simp] theorem State.refound_own (s : State) : (s.refound).own = s.own := rfl
@[simp] theorem State.refound_role (s : State) : (s.refound).role = s.role := rfl
@[simp] theorem State.refound_laneCount (s : State) : (s.refound).laneCount = s.laneCount := rfl

/-! ### State.refreshCandidate -/

@[simp] theorem State.refreshCandidate_inReset (s : State) :
    (s.refreshCandidate).inReset = s.inReset := rfl
@[simp] theorem State.refreshCandidate_capture (s : State) :
    (s.refreshCandidate).capture = s.capture := rfl
@[simp] theorem State.refreshCandidate_arbiter (s : State) :
    (s.refreshCandidate).arbiter = s.arbiter := rfl
@[simp] theorem State.refreshCandidate_detector (s : State) :
    (s.refreshCandidate).detector = s.detector := rfl
@[simp] theorem State.refreshCandidate_line (s : State) : (s.refreshCandidate).line = s.line := rfl
@[simp] theorem State.refreshCandidate_beat_sync (s : State) :
    (s.refreshCandidate).beat.sync = s.beat.sync := rfl
@[simp] theorem State.refreshCandidate_beat_timer (s : State) :
    (s.refreshCandidate).beat.timer = s.beat.timer := rfl
@[simp] theorem State.refreshCandidate_beat_cycle (s : State) :
    (s.refreshCandidate).beat.cycle = s.beat.cycle := rfl
@[simp] theorem State.refreshCandidate_beat_holder (s : State) :
    (s.refreshCandidate).beat.holder = s.beat.holder := rfl
@[simp] theorem State.refreshCandidate_beat_rank (s : State) :
    (s.refreshCandidate).beat.rank = s.beat.rank := rfl
@[simp] theorem State.refreshCandidate_beat_candidate (s : State) :
    (s.refreshCandidate).beat.candidate = (decide (s.beat.sync = .locked) && decide (s.beat.barred = 0)) := rfl
@[simp] theorem State.refreshCandidate_beat_holderCond (s : State) :
    (s.refreshCandidate).beat.holderCond = s.beat.holderCond := rfl
@[simp] theorem State.refreshCandidate_beat_barred (s : State) :
    (s.refreshCandidate).beat.barred = s.beat.barred := rfl
@[simp] theorem State.refreshCandidate_beat_failures (s : State) :
    (s.refreshCandidate).beat.failures = s.beat.failures := rfl
@[simp] theorem State.refreshCandidate_beat_coldStart (s : State) :
    (s.refreshCandidate).beat.coldStart = s.beat.coldStart := rfl
@[simp] theorem State.refreshCandidate_beat_obsCount (s : State) :
    (s.refreshCandidate).beat.obsCount = s.beat.obsCount := rfl
@[simp] theorem State.refreshCandidate_beat_entCount (s : State) :
    (s.refreshCandidate).beat.entCount = s.beat.entCount := rfl
@[simp] theorem State.refreshCandidate_beat_firstBeat (s : State) :
    (s.refreshCandidate).beat.firstBeat = s.beat.firstBeat := rfl
@[simp] theorem State.refreshCandidate_beat_waitOpen (s : State) :
    (s.refreshCandidate).beat.waitOpen = s.beat.waitOpen := rfl
@[simp] theorem State.refreshCandidate_beat_request (s : State) :
    (s.refreshCandidate).beat.request = s.beat.request := rfl
@[simp] theorem State.refreshCandidate_beat_takerAt (s : State) :
    (s.refreshCandidate).beat.takerAt = s.beat.takerAt := rfl
@[simp] theorem State.refreshCandidate_census (s : State) :
    (s.refreshCandidate).census = s.census := rfl
@[simp] theorem State.refreshCandidate_lanes (s : State) :
    (s.refreshCandidate).lanes = s.lanes := rfl
@[simp] theorem State.refreshCandidate_audio (s : State) :
    (s.refreshCandidate).audio = s.audio := rfl
@[simp] theorem State.refreshCandidate_mix (s : State) : (s.refreshCandidate).mix = s.mix := rfl
@[simp] theorem State.refreshCandidate_keys (s : State) : (s.refreshCandidate).keys = s.keys := rfl
@[simp] theorem State.refreshCandidate_status (s : State) :
    (s.refreshCandidate).status = s.status := rfl
@[simp] theorem State.refreshCandidate_cycleStarts (s : State) :
    (s.refreshCandidate).cycleStarts = s.cycleStarts := rfl
@[simp] theorem State.refreshCandidate_pending (s : State) :
    (s.refreshCandidate).pending = s.pending := rfl
@[simp] theorem State.refreshCandidate_own (s : State) : (s.refreshCandidate).own = s.own := rfl
@[simp] theorem State.refreshCandidate_role (s : State) : (s.refreshCandidate).role = s.role := rfl
@[simp] theorem State.refreshCandidate_laneCount (s : State) :
    (s.refreshCandidate).laneCount = s.laneCount := rfl

/-! ### State.setTable -/

@[simp] theorem State.setTable_inReset (t : LaneTable) (s : State) :
    (s.setTable t).inReset = s.inReset := rfl
@[simp] theorem State.setTable_capture (t : LaneTable) (s : State) :
    (s.setTable t).capture = s.capture := rfl
@[simp] theorem State.setTable_arbiter (t : LaneTable) (s : State) :
    (s.setTable t).arbiter = s.arbiter := rfl
@[simp] theorem State.setTable_detector (t : LaneTable) (s : State) :
    (s.setTable t).detector = s.detector := rfl
@[simp] theorem State.setTable_line (t : LaneTable) (s : State) :
    (s.setTable t).line = s.line := rfl
@[simp] theorem State.setTable_beat (t : LaneTable) (s : State) :
    (s.setTable t).beat = s.beat := rfl
@[simp] theorem State.setTable_census (t : LaneTable) (s : State) :
    (s.setTable t).census = s.census := rfl
@[simp] theorem State.setTable_lanes_table (t : LaneTable) (s : State) :
    (s.setTable t).lanes.table = t := rfl
@[simp] theorem State.setTable_lanes_slotCopy (t : LaneTable) (s : State) :
    (s.setTable t).lanes.slotCopy = s.lanes.slotCopy := rfl
@[simp] theorem State.setTable_lanes_request (t : LaneTable) (s : State) :
    (s.setTable t).lanes.request = s.lanes.request := rfl
@[simp] theorem State.setTable_lanes_waitAge (t : LaneTable) (s : State) :
    (s.setTable t).lanes.waitAge = s.lanes.waitAge := rfl
@[simp] theorem State.setTable_lanes_releasePending (t : LaneTable) (s : State) :
    (s.setTable t).lanes.releasePending = s.lanes.releasePending := rfl
@[simp] theorem State.setTable_lanes_closingCycle (t : LaneTable) (s : State) :
    (s.setTable t).lanes.closingCycle = s.lanes.closingCycle := rfl
@[simp] theorem State.setTable_lanes_idleHold (t : LaneTable) (s : State) :
    (s.setTable t).lanes.idleHold = s.lanes.idleHold := rfl
@[simp] theorem State.setTable_lanes_digest (t : LaneTable) (s : State) :
    (s.setTable t).lanes.digest = t.digest := rfl
@[simp] theorem State.setTable_lanes_divergence (t : LaneTable) (s : State) :
    (s.setTable t).lanes.divergence = s.lanes.divergence := rfl
@[simp] theorem State.setTable_lanes_laneCollisions (t : LaneTable) (s : State) :
    (s.setTable t).lanes.laneCollisions = s.lanes.laneCollisions := rfl
@[simp] theorem State.setTable_lanes_cutInCycle (t : LaneTable) (s : State) :
    (s.setTable t).lanes.cutInCycle = s.lanes.cutInCycle := rfl
@[simp] theorem State.setTable_audio (t : LaneTable) (s : State) :
    (s.setTable t).audio = s.audio := rfl
@[simp] theorem State.setTable_mix (t : LaneTable) (s : State) : (s.setTable t).mix = s.mix := rfl
@[simp] theorem State.setTable_keys (t : LaneTable) (s : State) :
    (s.setTable t).keys = s.keys := rfl
@[simp] theorem State.setTable_status (t : LaneTable) (s : State) :
    (s.setTable t).status = s.status := rfl
@[simp] theorem State.setTable_cycleStarts (t : LaneTable) (s : State) :
    (s.setTable t).cycleStarts = s.cycleStarts := rfl
@[simp] theorem State.setTable_pending (t : LaneTable) (s : State) :
    (s.setTable t).pending = s.pending := rfl
@[simp] theorem State.setTable_own (t : LaneTable) (s : State) : (s.setTable t).own = s.own := rfl
@[simp] theorem State.setTable_role (t : LaneTable) (s : State) :
    (s.setTable t).role = s.role := rfl
@[simp] theorem State.setTable_laneCount (t : LaneTable) (s : State) :
    (s.setTable t).laneCount = s.laneCount := rfl

/-! ### State.clearLaneFlags -/

@[simp] theorem State.clearLaneFlags_inReset (s : State) :
    (s.clearLaneFlags).inReset = s.inReset := rfl
@[simp] theorem State.clearLaneFlags_capture (s : State) :
    (s.clearLaneFlags).capture = s.capture := rfl
@[simp] theorem State.clearLaneFlags_arbiter (s : State) :
    (s.clearLaneFlags).arbiter = s.arbiter := rfl
@[simp] theorem State.clearLaneFlags_detector (s : State) :
    (s.clearLaneFlags).detector = s.detector := rfl
@[simp] theorem State.clearLaneFlags_line (s : State) : (s.clearLaneFlags).line = s.line := rfl
@[simp] theorem State.clearLaneFlags_beat (s : State) : (s.clearLaneFlags).beat = s.beat := rfl
@[simp] theorem State.clearLaneFlags_census (s : State) :
    (s.clearLaneFlags).census = s.census := rfl
@[simp] theorem State.clearLaneFlags_lanes_table (s : State) :
    (s.clearLaneFlags).lanes.table = s.lanes.table := rfl
@[simp] theorem State.clearLaneFlags_lanes_slotCopy (s : State) :
    (s.clearLaneFlags).lanes.slotCopy = s.lanes.slotCopy := rfl
@[simp] theorem State.clearLaneFlags_lanes_request (s : State) :
    (s.clearLaneFlags).lanes.request = s.lanes.request := rfl
@[simp] theorem State.clearLaneFlags_lanes_waitAge (s : State) :
    (s.clearLaneFlags).lanes.waitAge = s.lanes.waitAge := rfl
@[simp] theorem State.clearLaneFlags_lanes_releasePending (s : State) :
    (s.clearLaneFlags).lanes.releasePending = none := rfl
@[simp] theorem State.clearLaneFlags_lanes_closingCycle (s : State) :
    (s.clearLaneFlags).lanes.closingCycle = s.lanes.closingCycle := rfl
@[simp] theorem State.clearLaneFlags_lanes_idleHold (s : State) :
    (s.clearLaneFlags).lanes.idleHold = false := rfl
@[simp] theorem State.clearLaneFlags_lanes_digest (s : State) :
    (s.clearLaneFlags).lanes.digest = s.lanes.digest := rfl
@[simp] theorem State.clearLaneFlags_lanes_divergence (s : State) :
    (s.clearLaneFlags).lanes.divergence = s.lanes.divergence := rfl
@[simp] theorem State.clearLaneFlags_lanes_laneCollisions (s : State) :
    (s.clearLaneFlags).lanes.laneCollisions = 0 := rfl
@[simp] theorem State.clearLaneFlags_lanes_cutInCycle (s : State) :
    (s.clearLaneFlags).lanes.cutInCycle = s.lanes.cutInCycle := rfl
@[simp] theorem State.clearLaneFlags_audio (s : State) : (s.clearLaneFlags).audio = s.audio := rfl
@[simp] theorem State.clearLaneFlags_mix (s : State) : (s.clearLaneFlags).mix = s.mix := rfl
@[simp] theorem State.clearLaneFlags_keys (s : State) : (s.clearLaneFlags).keys = s.keys := rfl
@[simp] theorem State.clearLaneFlags_status (s : State) :
    (s.clearLaneFlags).status = s.status := rfl
@[simp] theorem State.clearLaneFlags_cycleStarts (s : State) :
    (s.clearLaneFlags).cycleStarts = s.cycleStarts := rfl
@[simp] theorem State.clearLaneFlags_pending (s : State) :
    (s.clearLaneFlags).pending = s.pending := rfl
@[simp] theorem State.clearLaneFlags_own (s : State) : (s.clearLaneFlags).own = s.own := rfl
@[simp] theorem State.clearLaneFlags_role (s : State) : (s.clearLaneFlags).role = s.role := rfl
@[simp] theorem State.clearLaneFlags_laneCount (s : State) :
    (s.clearLaneFlags).laneCount = s.laneCount := rfl

/-! ### State.endRequest -/

@[simp] theorem State.endRequest_inReset (s : State) : (s.endRequest.1).inReset = s.inReset := rfl
@[simp] theorem State.endRequest_capture (s : State) : (s.endRequest.1).capture = s.capture := rfl
@[simp] theorem State.endRequest_arbiter (s : State) : (s.endRequest.1).arbiter = s.arbiter := rfl
@[simp] theorem State.endRequest_detector (s : State) :
    (s.endRequest.1).detector = s.detector := rfl
@[simp] theorem State.endRequest_line (s : State) : (s.endRequest.1).line = s.line := rfl
@[simp] theorem State.endRequest_beat (s : State) : (s.endRequest.1).beat = s.beat := rfl
@[simp] theorem State.endRequest_census (s : State) : (s.endRequest.1).census = s.census := rfl
@[simp] theorem State.endRequest_lanes_table (s : State) :
    (s.endRequest.1).lanes.table = s.lanes.table := rfl
@[simp] theorem State.endRequest_lanes_slotCopy (s : State) :
    (s.endRequest.1).lanes.slotCopy = s.lanes.slotCopy := rfl
@[simp] theorem State.endRequest_lanes_request (s : State) :
    (s.endRequest.1).lanes.request = .none := rfl
@[simp] theorem State.endRequest_lanes_waitAge (s : State) :
    (s.endRequest.1).lanes.waitAge = 0 := rfl
@[simp] theorem State.endRequest_lanes_releasePending (s : State) :
    (s.endRequest.1).lanes.releasePending = s.lanes.releasePending := rfl
@[simp] theorem State.endRequest_lanes_closingCycle (s : State) :
    (s.endRequest.1).lanes.closingCycle = s.lanes.closingCycle := rfl
@[simp] theorem State.endRequest_lanes_idleHold (s : State) :
    (s.endRequest.1).lanes.idleHold = s.lanes.idleHold := rfl
@[simp] theorem State.endRequest_lanes_digest (s : State) :
    (s.endRequest.1).lanes.digest = s.lanes.digest := rfl
@[simp] theorem State.endRequest_lanes_divergence (s : State) :
    (s.endRequest.1).lanes.divergence = s.lanes.divergence := rfl
@[simp] theorem State.endRequest_lanes_laneCollisions (s : State) :
    (s.endRequest.1).lanes.laneCollisions = s.lanes.laneCollisions := rfl
@[simp] theorem State.endRequest_lanes_cutInCycle (s : State) :
    (s.endRequest.1).lanes.cutInCycle = s.lanes.cutInCycle := rfl
@[simp] theorem State.endRequest_audio (s : State) : (s.endRequest.1).audio = s.audio := rfl
@[simp] theorem State.endRequest_mix (s : State) : (s.endRequest.1).mix = s.mix := rfl
@[simp] theorem State.endRequest_keys (s : State) : (s.endRequest.1).keys = s.keys := rfl
@[simp] theorem State.endRequest_status (s : State) : (s.endRequest.1).status = s.status := rfl
@[simp] theorem State.endRequest_cycleStarts (s : State) :
    (s.endRequest.1).cycleStarts = s.cycleStarts := rfl
@[simp] theorem State.endRequest_pending (s : State) : (s.endRequest.1).pending = s.pending := rfl
@[simp] theorem State.endRequest_own (s : State) : (s.endRequest.1).own = s.own := rfl
@[simp] theorem State.endRequest_role (s : State) : (s.endRequest.1).role = s.role := rfl
@[simp] theorem State.endRequest_laneCount (s : State) :
    (s.endRequest.1).laneCount = s.laneCount := rfl

/-! ### State.evaluateRequest -/

@[simp] theorem State.evaluateRequest_inReset (s : State) :
    (s.evaluateRequest.1).inReset = s.inReset := rfl
@[simp] theorem State.evaluateRequest_capture (s : State) :
    (s.evaluateRequest.1).capture = s.capture := rfl
@[simp] theorem State.evaluateRequest_arbiter (s : State) :
    (s.evaluateRequest.1).arbiter = s.arbiter := rfl
@[simp] theorem State.evaluateRequest_detector (s : State) :
    (s.evaluateRequest.1).detector = s.detector := rfl
@[simp] theorem State.evaluateRequest_line (s : State) : (s.evaluateRequest.1).line = s.line := rfl
@[simp] theorem State.evaluateRequest_beat (s : State) : (s.evaluateRequest.1).beat = s.beat := rfl
@[simp] theorem State.evaluateRequest_census (s : State) :
    (s.evaluateRequest.1).census = s.census := rfl
@[simp] theorem State.evaluateRequest_lanes_table (s : State) :
    (s.evaluateRequest.1).lanes.table = s.lanes.table := rfl
@[simp] theorem State.evaluateRequest_lanes_slotCopy (s : State) :
    (s.evaluateRequest.1).lanes.slotCopy = s.lanes.slotCopy := rfl
@[simp] theorem State.evaluateRequest_lanes_request (s : State) :
    (s.evaluateRequest.1).lanes.request = s.requestNow := rfl
@[simp] theorem State.evaluateRequest_lanes_waitAge (s : State) :
    (s.evaluateRequest.1).lanes.waitAge = waitAgeAfter s.lanes.request s.requestNow s.lanes.waitAge := rfl
@[simp] theorem State.evaluateRequest_lanes_releasePending (s : State) :
    (s.evaluateRequest.1).lanes.releasePending = s.lanes.releasePending := rfl
@[simp] theorem State.evaluateRequest_lanes_closingCycle (s : State) :
    (s.evaluateRequest.1).lanes.closingCycle = s.lanes.closingCycle := rfl
@[simp] theorem State.evaluateRequest_lanes_idleHold (s : State) :
    (s.evaluateRequest.1).lanes.idleHold = s.lanes.idleHold := rfl
@[simp] theorem State.evaluateRequest_lanes_digest (s : State) :
    (s.evaluateRequest.1).lanes.digest = s.lanes.digest := rfl
@[simp] theorem State.evaluateRequest_lanes_divergence (s : State) :
    (s.evaluateRequest.1).lanes.divergence = s.lanes.divergence := rfl
@[simp] theorem State.evaluateRequest_lanes_laneCollisions (s : State) :
    (s.evaluateRequest.1).lanes.laneCollisions = s.lanes.laneCollisions := rfl
@[simp] theorem State.evaluateRequest_lanes_cutInCycle (s : State) :
    (s.evaluateRequest.1).lanes.cutInCycle = s.lanes.cutInCycle := rfl
@[simp] theorem State.evaluateRequest_audio (s : State) :
    (s.evaluateRequest.1).audio = s.audio := rfl
@[simp] theorem State.evaluateRequest_mix (s : State) : (s.evaluateRequest.1).mix = s.mix := rfl
@[simp] theorem State.evaluateRequest_keys (s : State) : (s.evaluateRequest.1).keys = s.keys := rfl
@[simp] theorem State.evaluateRequest_status (s : State) :
    (s.evaluateRequest.1).status = s.status := rfl
@[simp] theorem State.evaluateRequest_cycleStarts (s : State) :
    (s.evaluateRequest.1).cycleStarts = s.cycleStarts := rfl
@[simp] theorem State.evaluateRequest_pending (s : State) :
    (s.evaluateRequest.1).pending = s.pending := rfl
@[simp] theorem State.evaluateRequest_own (s : State) : (s.evaluateRequest.1).own = s.own := rfl
@[simp] theorem State.evaluateRequest_role (s : State) : (s.evaluateRequest.1).role = s.role := rfl
@[simp] theorem State.evaluateRequest_laneCount (s : State) :
    (s.evaluateRequest.1).laneCount = s.laneCount := rfl

/-! ### State.sendReport -/

@[simp] theorem State.sendReport_inReset (s : State) : (s.sendReport).inReset = s.inReset := rfl
@[simp] theorem State.sendReport_capture (s : State) : (s.sendReport).capture = s.capture := rfl
@[simp] theorem State.sendReport_arbiter (s : State) : (s.sendReport).arbiter = s.arbiter := rfl
@[simp] theorem State.sendReport_detector (s : State) : (s.sendReport).detector = s.detector := rfl
@[simp] theorem State.sendReport_line_tx (s : State) :
    (s.sendReport).line.tx = some { kind := .report, bits := encodeReport s.ownReport, sent := 0 } := rfl
@[simp] theorem State.sendReport_line_stopped (s : State) :
    (s.sendReport).line.stopped = s.line.stopped := rfl
@[simp] theorem State.sendReport_line_candidate (s : State) :
    (s.sendReport).line.candidate = s.line.candidate := rfl
@[simp] theorem State.sendReport_line_beatQuiet (s : State) :
    (s.sendReport).line.beatQuiet = s.line.beatQuiet := rfl
@[simp] theorem State.sendReport_line_slotFree (s : State) :
    (s.sendReport).line.slotFree = s.line.slotFree := rfl
@[simp] theorem State.sendReport_line_reportSpans (s : State) :
    (s.sendReport).line.reportSpans = s.line.reportSpans := rfl
@[simp] theorem State.sendReport_line_laneSpans (s : State) :
    (s.sendReport).line.laneSpans = s.line.laneSpans := rfl
@[simp] theorem State.sendReport_beat (s : State) : (s.sendReport).beat = s.beat := rfl
@[simp] theorem State.sendReport_census_peers (s : State) :
    (s.sendReport).census.peers = s.census.peers := rfl
@[simp] theorem State.sendReport_census_entries (s : State) :
    (s.sendReport).census.entries = put s.census.entries s.own (some s.ownReport) := rfl
@[simp] theorem State.sendReport_census_readback (s : State) :
    (s.sendReport).census.readback = s.census.readback := rfl
@[simp] theorem State.sendReport_census_ownCollisions (s : State) :
    (s.sendReport).census.ownCollisions = s.census.ownCollisions := rfl
@[simp] theorem State.sendReport_census_conflictWait (s : State) :
    (s.sendReport).census.conflictWait = s.census.conflictWait := rfl
@[simp] theorem State.sendReport_census_reportTx (s : State) :
    (s.sendReport).census.reportTx = some s.ownReport := rfl
@[simp] theorem State.sendReport_lanes (s : State) : (s.sendReport).lanes = s.lanes := rfl
@[simp] theorem State.sendReport_audio (s : State) : (s.sendReport).audio = s.audio := rfl
@[simp] theorem State.sendReport_mix (s : State) : (s.sendReport).mix = s.mix := rfl
@[simp] theorem State.sendReport_keys (s : State) : (s.sendReport).keys = s.keys := rfl
@[simp] theorem State.sendReport_status (s : State) : (s.sendReport).status = s.status := rfl
@[simp] theorem State.sendReport_cycleStarts (s : State) :
    (s.sendReport).cycleStarts = s.cycleStarts := rfl
@[simp] theorem State.sendReport_pending (s : State) : (s.sendReport).pending = s.pending := rfl
@[simp] theorem State.sendReport_own (s : State) : (s.sendReport).own = s.own := rfl
@[simp] theorem State.sendReport_role (s : State) : (s.sendReport).role = s.role := rfl
@[simp] theorem State.sendReport_laneCount (s : State) :
    (s.sendReport).laneCount = s.laneCount := rfl

/-! ### State.closeCensus -/

@[simp] theorem State.closeCensus_inReset (s : State) : (s.closeCensus).inReset = s.inReset := rfl
@[simp] theorem State.closeCensus_capture (s : State) : (s.closeCensus).capture = s.capture := rfl
@[simp] theorem State.closeCensus_arbiter (s : State) : (s.closeCensus).arbiter = s.arbiter := rfl
@[simp] theorem State.closeCensus_detector (s : State) :
    (s.closeCensus).detector = s.detector := rfl
@[simp] theorem State.closeCensus_line (s : State) : (s.closeCensus).line = s.line := rfl
@[simp] theorem State.closeCensus_beat (s : State) : (s.closeCensus).beat = s.beat := rfl
@[simp] theorem State.closeCensus_census_peers (s : State) :
    (s.closeCensus).census.peers = updatePeers s.own s.keys.fingerprint s.census.entries s.census.peers := rfl
@[simp] theorem State.closeCensus_census_entries (s : State) :
    (s.closeCensus).census.entries = s.census.entries := rfl
@[simp] theorem State.closeCensus_census_readback (s : State) :
    (s.closeCensus).census.readback = s.census.readback := rfl
@[simp] theorem State.closeCensus_census_ownCollisions (s : State) :
    (s.closeCensus).census.ownCollisions = (ownSlotCollisions s.beat.sync s.census.readback s.census.ownCollisions).1 := rfl
@[simp] theorem State.closeCensus_census_conflictWait (s : State) :
    (s.closeCensus).census.conflictWait = s.census.conflictWait := rfl
@[simp] theorem State.closeCensus_census_reportTx (s : State) :
    (s.closeCensus).census.reportTx = s.census.reportTx := rfl
@[simp] theorem State.closeCensus_lanes (s : State) : (s.closeCensus).lanes = s.lanes := rfl
@[simp] theorem State.closeCensus_audio (s : State) : (s.closeCensus).audio = s.audio := rfl
@[simp] theorem State.closeCensus_mix (s : State) : (s.closeCensus).mix = s.mix := rfl
@[simp] theorem State.closeCensus_keys (s : State) : (s.closeCensus).keys = s.keys := rfl
@[simp] theorem State.closeCensus_status (s : State) : (s.closeCensus).status = s.status := rfl
@[simp] theorem State.closeCensus_cycleStarts (s : State) :
    (s.closeCensus).cycleStarts = s.cycleStarts := rfl
@[simp] theorem State.closeCensus_pending (s : State) : (s.closeCensus).pending = s.pending := rfl
@[simp] theorem State.closeCensus_own (s : State) : (s.closeCensus).own = s.own := rfl
@[simp] theorem State.closeCensus_role (s : State) : (s.closeCensus).role = s.role := rfl
@[simp] theorem State.closeCensus_laneCount (s : State) :
    (s.closeCensus).laneCount = s.laneCount := rfl

/-! ### State.followHolder -/

@[simp] theorem State.followHolder_inReset (s : State) : (s.followHolder).inReset = s.inReset := rfl
@[simp] theorem State.followHolder_capture (s : State) : (s.followHolder).capture = s.capture := rfl
@[simp] theorem State.followHolder_arbiter (s : State) : (s.followHolder).arbiter = s.arbiter := rfl
@[simp] theorem State.followHolder_detector (s : State) :
    (s.followHolder).detector = s.detector := rfl
@[simp] theorem State.followHolder_line (s : State) : (s.followHolder).line = s.line := rfl
@[simp] theorem State.followHolder_beat_sync (s : State) :
    (s.followHolder).beat.sync = s.beat.sync := rfl
@[simp] theorem State.followHolder_beat_timer (s : State) :
    (s.followHolder).beat.timer = s.beat.timer := rfl
@[simp] theorem State.followHolder_beat_cycle (s : State) :
    (s.followHolder).beat.cycle = s.beat.cycle := rfl
@[simp] theorem State.followHolder_beat_holder (s : State) :
    (s.followHolder).beat.holder = (match holderAddress s.census.entries with | some a => some a | none => s.beat.holder) := rfl
@[simp] theorem State.followHolder_beat_rank (s : State) : (s.followHolder).beat.rank = none := rfl
@[simp] theorem State.followHolder_beat_candidate (s : State) :
    (s.followHolder).beat.candidate = s.beat.candidate := rfl
@[simp] theorem State.followHolder_beat_holderCond (s : State) :
    (s.followHolder).beat.holderCond = s.beat.holderCond := rfl
@[simp] theorem State.followHolder_beat_barred (s : State) :
    (s.followHolder).beat.barred = s.beat.barred := rfl
@[simp] theorem State.followHolder_beat_failures (s : State) :
    (s.followHolder).beat.failures = s.beat.failures := rfl
@[simp] theorem State.followHolder_beat_coldStart (s : State) :
    (s.followHolder).beat.coldStart = s.beat.coldStart := rfl
@[simp] theorem State.followHolder_beat_obsCount (s : State) :
    (s.followHolder).beat.obsCount = s.beat.obsCount := rfl
@[simp] theorem State.followHolder_beat_entCount (s : State) :
    (s.followHolder).beat.entCount = s.beat.entCount := rfl
@[simp] theorem State.followHolder_beat_firstBeat (s : State) :
    (s.followHolder).beat.firstBeat = s.beat.firstBeat := rfl
@[simp] theorem State.followHolder_beat_waitOpen (s : State) :
    (s.followHolder).beat.waitOpen = s.beat.waitOpen := rfl
@[simp] theorem State.followHolder_beat_request (s : State) :
    (s.followHolder).beat.request = s.beat.request := rfl
@[simp] theorem State.followHolder_beat_takerAt (s : State) :
    (s.followHolder).beat.takerAt = s.beat.takerAt := rfl
@[simp] theorem State.followHolder_census (s : State) : (s.followHolder).census = s.census := rfl
@[simp] theorem State.followHolder_lanes (s : State) : (s.followHolder).lanes = s.lanes := rfl
@[simp] theorem State.followHolder_audio (s : State) : (s.followHolder).audio = s.audio := rfl
@[simp] theorem State.followHolder_mix (s : State) : (s.followHolder).mix = s.mix := rfl
@[simp] theorem State.followHolder_keys (s : State) : (s.followHolder).keys = s.keys := rfl
@[simp] theorem State.followHolder_status (s : State) : (s.followHolder).status = s.status := rfl
@[simp] theorem State.followHolder_cycleStarts (s : State) :
    (s.followHolder).cycleStarts = s.cycleStarts := rfl
@[simp] theorem State.followHolder_pending (s : State) : (s.followHolder).pending = s.pending := rfl
@[simp] theorem State.followHolder_own (s : State) : (s.followHolder).own = s.own := rfl
@[simp] theorem State.followHolder_role (s : State) : (s.followHolder).role = s.role := rfl
@[simp] theorem State.followHolder_laneCount (s : State) :
    (s.followHolder).laneCount = s.laneCount := rfl

/-! ### State.selectHolder -/

@[simp] theorem State.selectHolder_inReset (s : State) : (s.selectHolder).inReset = s.inReset := rfl
@[simp] theorem State.selectHolder_capture (s : State) : (s.selectHolder).capture = s.capture := rfl
@[simp] theorem State.selectHolder_arbiter (s : State) : (s.selectHolder).arbiter = s.arbiter := rfl
@[simp] theorem State.selectHolder_detector (s : State) :
    (s.selectHolder).detector = s.detector := rfl
@[simp] theorem State.selectHolder_line (s : State) : (s.selectHolder).line = s.line := rfl
@[simp] theorem State.selectHolder_beat_sync (s : State) :
    (s.selectHolder).beat.sync = s.beat.sync := rfl
@[simp] theorem State.selectHolder_beat_timer (s : State) :
    (s.selectHolder).beat.timer = s.beat.timer := rfl
@[simp] theorem State.selectHolder_beat_cycle (s : State) :
    (s.selectHolder).beat.cycle = s.beat.cycle := rfl
@[simp] theorem State.selectHolder_beat_holder (s : State) :
    (s.selectHolder).beat.holder = (candidateList s.delivery).head? := rfl
@[simp] theorem State.selectHolder_beat_rank (s : State) :
    (s.selectHolder).beat.rank = rankIn s.own (candidateList s.delivery) := rfl
@[simp] theorem State.selectHolder_beat_candidate (s : State) :
    (s.selectHolder).beat.candidate = s.beat.candidate := rfl
@[simp] theorem State.selectHolder_beat_holderCond (s : State) :
    (s.selectHolder).beat.holderCond = s.beat.holderCond := rfl
@[simp] theorem State.selectHolder_beat_barred (s : State) :
    (s.selectHolder).beat.barred = s.beat.barred := rfl
@[simp] theorem State.selectHolder_beat_failures (s : State) :
    (s.selectHolder).beat.failures = s.beat.failures := rfl
@[simp] theorem State.selectHolder_beat_coldStart (s : State) :
    (s.selectHolder).beat.coldStart = s.beat.coldStart := rfl
@[simp] theorem State.selectHolder_beat_obsCount (s : State) :
    (s.selectHolder).beat.obsCount = s.beat.obsCount := rfl
@[simp] theorem State.selectHolder_beat_entCount (s : State) :
    (s.selectHolder).beat.entCount = s.beat.entCount := rfl
@[simp] theorem State.selectHolder_beat_firstBeat (s : State) :
    (s.selectHolder).beat.firstBeat = s.beat.firstBeat := rfl
@[simp] theorem State.selectHolder_beat_waitOpen (s : State) :
    (s.selectHolder).beat.waitOpen = s.beat.waitOpen := rfl
@[simp] theorem State.selectHolder_beat_request (s : State) :
    (s.selectHolder).beat.request = s.beat.request := rfl
@[simp] theorem State.selectHolder_beat_takerAt (s : State) :
    (s.selectHolder).beat.takerAt = s.beat.takerAt := rfl
@[simp] theorem State.selectHolder_census (s : State) : (s.selectHolder).census = s.census := rfl
@[simp] theorem State.selectHolder_lanes (s : State) : (s.selectHolder).lanes = s.lanes := rfl
@[simp] theorem State.selectHolder_audio (s : State) : (s.selectHolder).audio = s.audio := rfl
@[simp] theorem State.selectHolder_mix (s : State) : (s.selectHolder).mix = s.mix := rfl
@[simp] theorem State.selectHolder_keys (s : State) : (s.selectHolder).keys = s.keys := rfl
@[simp] theorem State.selectHolder_status (s : State) : (s.selectHolder).status = s.status := rfl
@[simp] theorem State.selectHolder_cycleStarts (s : State) :
    (s.selectHolder).cycleStarts = s.cycleStarts := rfl
@[simp] theorem State.selectHolder_pending (s : State) : (s.selectHolder).pending = s.pending := rfl
@[simp] theorem State.selectHolder_own (s : State) : (s.selectHolder).own = s.own := rfl
@[simp] theorem State.selectHolder_role (s : State) : (s.selectHolder).role = s.role := rfl
@[simp] theorem State.selectHolder_laneCount (s : State) :
    (s.selectHolder).laneCount = s.laneCount := rfl

/-! ### State.judgeLane -/

@[simp] theorem State.judgeLane_inReset (l : Lane) (f : Option LaneFrame) (s : State) :
    (s.judgeLane l f).inReset = s.inReset := rfl
@[simp] theorem State.judgeLane_capture (l : Lane) (f : Option LaneFrame) (s : State) :
    (s.judgeLane l f).capture = s.capture := rfl
@[simp] theorem State.judgeLane_arbiter (l : Lane) (f : Option LaneFrame) (s : State) :
    (s.judgeLane l f).arbiter = s.arbiter := rfl
@[simp] theorem State.judgeLane_detector (l : Lane) (f : Option LaneFrame) (s : State) :
    (s.judgeLane l f).detector = s.detector := rfl
@[simp] theorem State.judgeLane_line_tx (l : Lane) (f : Option LaneFrame) (s : State) :
    (s.judgeLane l f).line.tx = s.line.tx := rfl
@[simp] theorem State.judgeLane_line_stopped (l : Lane) (f : Option LaneFrame) (s : State) :
    (s.judgeLane l f).line.stopped = s.line.stopped := rfl
@[simp] theorem State.judgeLane_line_candidate (l : Lane) (f : Option LaneFrame) (s : State) :
    (s.judgeLane l f).line.candidate = s.line.candidate := rfl
@[simp] theorem State.judgeLane_line_beatQuiet (l : Lane) (f : Option LaneFrame) (s : State) :
    (s.judgeLane l f).line.beatQuiet = s.line.beatQuiet := rfl
@[simp] theorem State.judgeLane_line_slotFree (l : Lane) (f : Option LaneFrame) (s : State) :
    (s.judgeLane l f).line.slotFree = s.line.slotFree := rfl
@[simp] theorem State.judgeLane_line_reportSpans (l : Lane) (f : Option LaneFrame) (s : State) :
    (s.judgeLane l f).line.reportSpans = s.line.reportSpans := rfl
@[simp] theorem State.judgeLane_line_laneSpans (l : Lane) (f : Option LaneFrame) (s : State) :
    (s.judgeLane l f).line.laneSpans = put s.line.laneSpans l false := rfl
@[simp] theorem State.judgeLane_beat (l : Lane) (f : Option LaneFrame) (s : State) :
    (s.judgeLane l f).beat = s.beat := rfl
@[simp] theorem State.judgeLane_census (l : Lane) (f : Option LaneFrame) (s : State) :
    (s.judgeLane l f).census = s.census := rfl
@[simp] theorem State.judgeLane_lanes (l : Lane) (f : Option LaneFrame) (s : State) :
    (s.judgeLane l f).lanes = s.lanes := rfl
@[simp] theorem State.judgeLane_audio_tx (l : Lane) (f : Option LaneFrame) (s : State) :
    (s.judgeLane l f).audio.tx = s.audio.tx := rfl
@[simp] theorem State.judgeLane_audio_lanes (l : Lane) (f : Option LaneFrame) (s : State) :
    (s.judgeLane l f).audio.lanes = put s.audio.lanes l (s.audio.lanes[l].judge s.lanes.slotCopy[l] s.own f) := rfl
@[simp] theorem State.judgeLane_audio_unlisted (l : Lane) (f : Option LaneFrame) (s : State) :
    (s.judgeLane l f).audio.unlisted = s.audio.unlisted := rfl
@[simp] theorem State.judgeLane_mix (l : Lane) (f : Option LaneFrame) (s : State) :
    (s.judgeLane l f).mix = s.mix := rfl
@[simp] theorem State.judgeLane_keys (l : Lane) (f : Option LaneFrame) (s : State) :
    (s.judgeLane l f).keys = s.keys := rfl
@[simp] theorem State.judgeLane_status (l : Lane) (f : Option LaneFrame) (s : State) :
    (s.judgeLane l f).status = s.status := rfl
@[simp] theorem State.judgeLane_cycleStarts (l : Lane) (f : Option LaneFrame) (s : State) :
    (s.judgeLane l f).cycleStarts = s.cycleStarts := rfl
@[simp] theorem State.judgeLane_pending (l : Lane) (f : Option LaneFrame) (s : State) :
    (s.judgeLane l f).pending = s.pending := rfl
@[simp] theorem State.judgeLane_own (l : Lane) (f : Option LaneFrame) (s : State) :
    (s.judgeLane l f).own = s.own := rfl
@[simp] theorem State.judgeLane_role (l : Lane) (f : Option LaneFrame) (s : State) :
    (s.judgeLane l f).role = s.role := rfl
@[simp] theorem State.judgeLane_laneCount (l : Lane) (f : Option LaneFrame) (s : State) :
    (s.judgeLane l f).laneCount = s.laneCount := rfl

/-! ### Beat.elapse -/

@[simp] theorem Beat.elapse_sync (n : Nat) (x : Beat) : (x.elapse n).sync = x.sync := rfl
@[simp] theorem Beat.elapse_timer (n : Nat) (x : Beat) : (x.elapse n).timer = x.timer + n := rfl
@[simp] theorem Beat.elapse_cycle (n : Nat) (x : Beat) : (x.elapse n).cycle = x.cycle := rfl
@[simp] theorem Beat.elapse_holder (n : Nat) (x : Beat) : (x.elapse n).holder = x.holder := rfl
@[simp] theorem Beat.elapse_rank (n : Nat) (x : Beat) : (x.elapse n).rank = x.rank := rfl
@[simp] theorem Beat.elapse_candidate (n : Nat) (x : Beat) :
    (x.elapse n).candidate = x.candidate := rfl
@[simp] theorem Beat.elapse_holderCond (n : Nat) (x : Beat) :
    (x.elapse n).holderCond = x.holderCond := rfl
@[simp] theorem Beat.elapse_barred (n : Nat) (x : Beat) : (x.elapse n).barred = x.barred := rfl
@[simp] theorem Beat.elapse_failures (n : Nat) (x : Beat) :
    (x.elapse n).failures = x.failures := rfl
@[simp] theorem Beat.elapse_coldStart (n : Nat) (x : Beat) :
    (x.elapse n).coldStart = x.coldStart.map (· - n) := rfl
@[simp] theorem Beat.elapse_obsCount (n : Nat) (x : Beat) :
    (x.elapse n).obsCount = x.obsCount := rfl
@[simp] theorem Beat.elapse_entCount (n : Nat) (x : Beat) :
    (x.elapse n).entCount = x.entCount := rfl
@[simp] theorem Beat.elapse_firstBeat (n : Nat) (x : Beat) :
    (x.elapse n).firstBeat = x.firstBeat := rfl
@[simp] theorem Beat.elapse_waitOpen (n : Nat) (x : Beat) :
    (x.elapse n).waitOpen = x.waitOpen := rfl
@[simp] theorem Beat.elapse_request (n : Nat) (x : Beat) :
    (x.elapse n).request = (match x.request with | .sending kind cycle age => .sending kind cycle (age + n) | r => r) := rfl
@[simp] theorem Beat.elapse_takerAt (n : Nat) (x : Beat) : (x.elapse n).takerAt = x.takerAt := rfl

/-! ### Line.elapse -/

@[simp] theorem Line.elapse_tx (n : Nat) (x : Line) :
    (x.elapse n).tx = (x.tx.map fun t => { t with sent := t.sent + n }) := rfl
@[simp] theorem Line.elapse_stopped (n : Nat) (x : Line) : (x.elapse n).stopped = x.stopped := rfl
@[simp] theorem Line.elapse_candidate (n : Nat) (x : Line) :
    (x.elapse n).candidate = x.candidate.map (· + n) := rfl
@[simp] theorem Line.elapse_beatQuiet (n : Nat) (x : Line) :
    (x.elapse n).beatQuiet = min edgeQuiet (x.beatQuiet + n) := rfl
@[simp] theorem Line.elapse_slotFree (n : Nat) (x : Line) :
    (x.elapse n).slotFree = x.slotFree := rfl
@[simp] theorem Line.elapse_reportSpans (n : Nat) (x : Line) :
    (x.elapse n).reportSpans = x.reportSpans := rfl
@[simp] theorem Line.elapse_laneSpans (n : Nat) (x : Line) :
    (x.elapse n).laneSpans = x.laneSpans := rfl

/-! ### Mix.elapse -/

@[simp] theorem Mix.elapse_playing (n : Nat) (x : Mix) : (x.elapse n).playing = x.playing := rfl
@[simp] theorem Mix.elapse_next (n : Nat) (x : Mix) : (x.elapse n).next = x.next := rfl
@[simp] theorem Mix.elapse_nextStatus (n : Nat) (x : Mix) :
    (x.elapse n).nextStatus = x.nextStatus := rfl
@[simp] theorem Mix.elapse_formingNext (n : Nat) (x : Mix) :
    (x.elapse n).formingNext = x.formingNext.map (Formation.elapse n) := rfl
@[simp] theorem Mix.elapse_formingPlaying (n : Nat) (x : Mix) :
    (x.elapse n).formingPlaying = x.formingPlaying.map (Formation.elapse n) := rfl
@[simp] theorem Mix.elapse_formingLeft (n : Nat) (x : Mix) :
    (x.elapse n).formingLeft = x.formingLeft := rfl
@[simp] theorem Mix.elapse_closed (n : Nat) (x : Mix) : (x.elapse n).closed = x.closed := rfl
@[simp] theorem Mix.elapse_sets (n : Nat) (x : Mix) : (x.elapse n).sets = x.sets := rfl
@[simp] theorem Mix.elapse_refAge (n : Nat) (x : Mix) : (x.elapse n).refAge = x.refAge + n := rfl
@[simp] theorem Mix.elapse_oclk (n : Nat) (x : Mix) :
    (x.elapse n).oclk = (x.oclk + 4 * n) % 12 := rfl
@[simp] theorem Mix.elapse_frame (n : Nat) (x : Mix) :
    (x.elapse n).frame = (x.frame.map fun f => { f with age := f.age + n, right := x.rightAfter n f }) := rfl

/-! ### StatusPort.elapse -/

@[simp] theorem StatusPort.elapse_queue (n : Nat) (x : StatusPort) :
    (x.elapse n).queue = x.queue := rfl
@[simp] theorem StatusPort.elapse_tx (n : Nat) (x : StatusPort) : (x.elapse n).tx = x.tx := rfl
@[simp] theorem StatusPort.elapse_overrun (n : Nat) (x : StatusPort) :
    (x.elapse n).overrun = x.overrun := rfl
@[simp] theorem StatusPort.elapse_summaryCount (n : Nat) (x : StatusPort) :
    (x.elapse n).summaryCount = x.summaryCount := rfl
@[simp] theorem StatusPort.elapse_bitClock (n : Nat) (x : StatusPort) :
    (x.elapse n).bitClock = x.bitClock + 4 * n := rfl
@[simp] theorem StatusPort.elapse_nextFree (n : Nat) (x : StatusPort) :
    (x.elapse n).nextFree = x.nextFree := rfl

/-! ### Line.drive -/

@[simp] theorem Line.drive_tx (k : FrameKind) (b : List Bool) (x : Line) :
    (x.drive k b).tx = some { kind := k, bits := b, sent := 0 } := rfl
@[simp] theorem Line.drive_stopped (k : FrameKind) (b : List Bool) (x : Line) :
    (x.drive k b).stopped = x.stopped := rfl
@[simp] theorem Line.drive_candidate (k : FrameKind) (b : List Bool) (x : Line) :
    (x.drive k b).candidate = x.candidate := rfl
@[simp] theorem Line.drive_beatQuiet (k : FrameKind) (b : List Bool) (x : Line) :
    (x.drive k b).beatQuiet = x.beatQuiet := rfl
@[simp] theorem Line.drive_slotFree (k : FrameKind) (b : List Bool) (x : Line) :
    (x.drive k b).slotFree = x.slotFree := rfl
@[simp] theorem Line.drive_reportSpans (k : FrameKind) (b : List Bool) (x : Line) :
    (x.drive k b).reportSpans = x.reportSpans := rfl
@[simp] theorem Line.drive_laneSpans (k : FrameKind) (b : List Bool) (x : Line) :
    (x.drive k b).laneSpans = x.laneSpans := rfl

/-! ### Line.release -/

@[simp] theorem Line.release_tx (k : FrameKind) (x : Line) :
    (x.release k).tx = (x.tx.filter fun t => decide (t.kind ≠ k)) := rfl
@[simp] theorem Line.release_stopped (k : FrameKind) (x : Line) :
    (x.release k).stopped = x.stopped := rfl
@[simp] theorem Line.release_candidate (k : FrameKind) (x : Line) :
    (x.release k).candidate = x.candidate := rfl
@[simp] theorem Line.release_beatQuiet (k : FrameKind) (x : Line) :
    (x.release k).beatQuiet = x.beatQuiet := rfl
@[simp] theorem Line.release_slotFree (k : FrameKind) (x : Line) :
    (x.release k).slotFree = x.slotFree := rfl
@[simp] theorem Line.release_reportSpans (k : FrameKind) (x : Line) :
    (x.release k).reportSpans = x.reportSpans := rfl
@[simp] theorem Line.release_laneSpans (k : FrameKind) (x : Line) :
    (x.release k).laneSpans = x.laneSpans := rfl

/-! ### Line.stop -/

@[simp] theorem Line.stop_tx (x : Line) : (x.stop).tx = x.tx.map LineTx.stop := rfl
@[simp] theorem Line.stop_stopped (x : Line) : (x.stop).stopped = x.stopped := rfl
@[simp] theorem Line.stop_candidate (x : Line) : (x.stop).candidate = x.candidate := rfl
@[simp] theorem Line.stop_beatQuiet (x : Line) : (x.stop).beatQuiet = x.beatQuiet := rfl
@[simp] theorem Line.stop_slotFree (x : Line) : (x.stop).slotFree = x.slotFree := rfl
@[simp] theorem Line.stop_reportSpans (x : Line) : (x.stop).reportSpans = x.reportSpans := rfl
@[simp] theorem Line.stop_laneSpans (x : Line) : (x.stop).laneSpans = x.laneSpans := rfl

/-! ### Line.stopLane -/

@[simp] theorem Line.stopLane_tx (x : Line) :
    (x.stopLane).tx = (x.tx.map fun t => if t.kind = .lane then t.stop else t) := rfl
@[simp] theorem Line.stopLane_stopped (x : Line) : (x.stopLane).stopped = x.stopped := rfl
@[simp] theorem Line.stopLane_candidate (x : Line) : (x.stopLane).candidate = x.candidate := rfl
@[simp] theorem Line.stopLane_beatQuiet (x : Line) : (x.stopLane).beatQuiet = x.beatQuiet := rfl
@[simp] theorem Line.stopLane_slotFree (x : Line) : (x.stopLane).slotFree = x.slotFree := rfl
@[simp] theorem Line.stopLane_reportSpans (x : Line) :
    (x.stopLane).reportSpans = x.reportSpans := rfl
@[simp] theorem Line.stopLane_laneSpans (x : Line) : (x.stopLane).laneSpans = x.laneSpans := rfl

/-! ### Line.rejoin -/

@[simp] theorem Line.rejoin_tx (x : Line) : (x.rejoin).tx = x.tx.map LineTx.stop := rfl
@[simp] theorem Line.rejoin_stopped (x : Line) : (x.rejoin).stopped = [] := rfl
@[simp] theorem Line.rejoin_candidate (x : Line) : (x.rejoin).candidate = x.candidate := rfl
@[simp] theorem Line.rejoin_beatQuiet (x : Line) : (x.rejoin).beatQuiet = x.beatQuiet := rfl
@[simp] theorem Line.rejoin_slotFree (x : Line) : (x.rejoin).slotFree = 0 := rfl
@[simp] theorem Line.rejoin_reportSpans (x : Line) :
    (x.rejoin).reportSpans = Vector.replicate 16 false := rfl
@[simp] theorem Line.rejoin_laneSpans (x : Line) :
    (x.rejoin).laneSpans = Vector.replicate 4 false := rfl

/-! ### Line.openSpans -/

@[simp] theorem Line.openSpans_tx (y : SyncState) (m age : Nat) (x : Line) :
    (x.openSpans y m age).tx = x.tx := rfl
@[simp] theorem Line.openSpans_stopped (y : SyncState) (m age : Nat) (x : Line) :
    (x.openSpans y m age).stopped = x.stopped := rfl
@[simp] theorem Line.openSpans_candidate (y : SyncState) (m age : Nat) (x : Line) :
    (x.openSpans y m age).candidate = x.candidate := rfl
@[simp] theorem Line.openSpans_beatQuiet (y : SyncState) (m age : Nat) (x : Line) :
    (x.openSpans y m age).beatQuiet = x.beatQuiet := rfl
@[simp] theorem Line.openSpans_slotFree (y : SyncState) (m age : Nat) (x : Line) :
    (x.openSpans y m age).slotFree = age := rfl
@[simp] theorem Line.openSpans_reportSpans (y : SyncState) (m age : Nat) (x : Line) :
    (x.openSpans y m age).reportSpans = Vector.replicate 16 y.receives := rfl
@[simp] theorem Line.openSpans_laneSpans (y : SyncState) (m age : Nat) (x : Line) :
    (x.openSpans y m age).laneSpans = (Vector.ofFn fun i => y.receives && decide (i.val < m)) := rfl

/-! ### Beat.cycleStart -/

@[simp] theorem Beat.cycleStart_sync (cs : CycleStart) (x : Beat) :
    (x.cycleStart cs).sync = x.sync := rfl
@[simp] theorem Beat.cycleStart_timer (cs : CycleStart) (x : Beat) :
    (x.cycleStart cs).timer = cs.age := rfl
@[simp] theorem Beat.cycleStart_cycle (cs : CycleStart) (x : Beat) :
    (x.cycleStart cs).cycle = cs.cycle := rfl
@[simp] theorem Beat.cycleStart_holder (cs : CycleStart) (x : Beat) :
    (x.cycleStart cs).holder = x.holder := rfl
@[simp] theorem Beat.cycleStart_rank (cs : CycleStart) (x : Beat) :
    (x.cycleStart cs).rank = x.rank := rfl
@[simp] theorem Beat.cycleStart_candidate (cs : CycleStart) (x : Beat) :
    (x.cycleStart cs).candidate = x.candidate := rfl
@[simp] theorem Beat.cycleStart_holderCond (cs : CycleStart) (x : Beat) :
    (x.cycleStart cs).holderCond = cs.own := rfl
@[simp] theorem Beat.cycleStart_barred (cs : CycleStart) (x : Beat) :
    (x.cycleStart cs).barred = x.barred - 1 := rfl
@[simp] theorem Beat.cycleStart_failures (cs : CycleStart) (x : Beat) :
    (x.cycleStart cs).failures = x.failures := rfl
@[simp] theorem Beat.cycleStart_coldStart (cs : CycleStart) (x : Beat) :
    (x.cycleStart cs).coldStart = x.coldStart := rfl
@[simp] theorem Beat.cycleStart_obsCount (cs : CycleStart) (x : Beat) :
    (x.cycleStart cs).obsCount = x.obsCount := rfl
@[simp] theorem Beat.cycleStart_entCount (cs : CycleStart) (x : Beat) :
    (x.cycleStart cs).entCount = x.entCount := rfl
@[simp] theorem Beat.cycleStart_firstBeat (cs : CycleStart) (x : Beat) :
    (x.cycleStart cs).firstBeat = x.firstBeat := rfl
@[simp] theorem Beat.cycleStart_waitOpen (cs : CycleStart) (x : Beat) :
    (x.cycleStart cs).waitOpen = false := rfl
@[simp] theorem Beat.cycleStart_request (cs : CycleStart) (x : Beat) :
    (x.cycleStart cs).request = x.request.atCycleStart := rfl
@[simp] theorem Beat.cycleStart_takerAt (cs : CycleStart) (x : Beat) :
    (x.cycleStart cs).takerAt = none := rfl

/-! ### Beat.rejoin -/

@[simp] theorem Beat.rejoin_sync (a : Addr) (x : Beat) : (x.rejoin a).sync = x.sync := rfl
@[simp] theorem Beat.rejoin_timer (a : Addr) (x : Beat) : (x.rejoin a).timer = x.timer := rfl
@[simp] theorem Beat.rejoin_cycle (a : Addr) (x : Beat) : (x.rejoin a).cycle = x.cycle := rfl
@[simp] theorem Beat.rejoin_holder (a : Addr) (x : Beat) : (x.rejoin a).holder = none := rfl
@[simp] theorem Beat.rejoin_rank (a : Addr) (x : Beat) : (x.rejoin a).rank = none := rfl
@[simp] theorem Beat.rejoin_candidate (a : Addr) (x : Beat) : (x.rejoin a).candidate = false := rfl
@[simp] theorem Beat.rejoin_holderCond (a : Addr) (x : Beat) :
    (x.rejoin a).holderCond = false := rfl
@[simp] theorem Beat.rejoin_barred (a : Addr) (x : Beat) : (x.rejoin a).barred = 0 := rfl
@[simp] theorem Beat.rejoin_failures (a : Addr) (x : Beat) : (x.rejoin a).failures = 0 := rfl
@[simp] theorem Beat.rejoin_coldStart (a : Addr) (x : Beat) :
    (x.rejoin a).coldStart = some (coldStartDelay a.val) := rfl
@[simp] theorem Beat.rejoin_obsCount (a : Addr) (x : Beat) : (x.rejoin a).obsCount = 0 := rfl
@[simp] theorem Beat.rejoin_entCount (a : Addr) (x : Beat) : (x.rejoin a).entCount = 0 := rfl
@[simp] theorem Beat.rejoin_firstBeat (a : Addr) (x : Beat) : (x.rejoin a).firstBeat = false := rfl
@[simp] theorem Beat.rejoin_waitOpen (a : Addr) (x : Beat) : (x.rejoin a).waitOpen = false := rfl
@[simp] theorem Beat.rejoin_request (a : Addr) (x : Beat) : (x.rejoin a).request = .idle := rfl
@[simp] theorem Beat.rejoin_takerAt (a : Addr) (x : Beat) : (x.rejoin a).takerAt = none := rfl

/-! ### Census.cycleStart -/

@[simp] theorem Census.cycleStart_peers (y : SyncState) (x : Census) :
    (x.cycleStart y).peers = x.peers := rfl
@[simp] theorem Census.cycleStart_entries (y : SyncState) (x : Census) :
    (x.cycleStart y).entries = Vector.replicate 16 none := rfl
@[simp] theorem Census.cycleStart_readback (y : SyncState) (x : Census) :
    (x.cycleStart y).readback = none := rfl
@[simp] theorem Census.cycleStart_ownCollisions (y : SyncState) (x : Census) :
    (x.cycleStart y).ownCollisions = x.ownCollisions := rfl
@[simp] theorem Census.cycleStart_conflictWait (y : SyncState) (x : Census) :
    (x.cycleStart y).conflictWait = (if y = .conflict then x.conflictWait - 1 else x.conflictWait) := rfl
@[simp] theorem Census.cycleStart_reportTx (y : SyncState) (x : Census) :
    (x.cycleStart y).reportTx = x.reportTx := rfl

/-! ### Census.enter -/

@[simp] theorem Census.enter_peers (a : Addr) (r : Report) (x : Census) :
    (x.enter a r).peers = x.peers := rfl
@[simp] theorem Census.enter_entries (a : Addr) (r : Report) (x : Census) :
    (x.enter a r).entries = put x.entries a (some r) := rfl
@[simp] theorem Census.enter_readback (a : Addr) (r : Report) (x : Census) :
    (x.enter a r).readback = x.readback := rfl
@[simp] theorem Census.enter_ownCollisions (a : Addr) (r : Report) (x : Census) :
    (x.enter a r).ownCollisions = x.ownCollisions := rfl
@[simp] theorem Census.enter_conflictWait (a : Addr) (r : Report) (x : Census) :
    (x.enter a r).conflictWait = x.conflictWait := rfl
@[simp] theorem Census.enter_reportTx (a : Addr) (r : Report) (x : Census) :
    (x.enter a r).reportTx = x.reportTx := rfl

/-! ### LaneManager.cycleStart -/

@[simp] theorem LaneManager.cycleStart_table (x : LaneManager) :
    (x.cycleStart).table = x.table := rfl
@[simp] theorem LaneManager.cycleStart_slotCopy (x : LaneManager) :
    (x.cycleStart).slotCopy = x.table := rfl
@[simp] theorem LaneManager.cycleStart_request (x : LaneManager) :
    (x.cycleStart).request = x.request := rfl
@[simp] theorem LaneManager.cycleStart_waitAge (x : LaneManager) :
    (x.cycleStart).waitAge = x.waitAge := rfl
@[simp] theorem LaneManager.cycleStart_releasePending (x : LaneManager) :
    (x.cycleStart).releasePending = x.releasePending := rfl
@[simp] theorem LaneManager.cycleStart_closingCycle (x : LaneManager) :
    (x.cycleStart).closingCycle = x.releasePending.isSome := rfl
@[simp] theorem LaneManager.cycleStart_idleHold (x : LaneManager) :
    (x.cycleStart).idleHold = x.idleHold := rfl
@[simp] theorem LaneManager.cycleStart_digest (x : LaneManager) :
    (x.cycleStart).digest = x.digest := rfl
@[simp] theorem LaneManager.cycleStart_divergence (x : LaneManager) :
    (x.cycleStart).divergence = x.divergence := rfl
@[simp] theorem LaneManager.cycleStart_laneCollisions (x : LaneManager) :
    (x.cycleStart).laneCollisions = x.laneCollisions := rfl
@[simp] theorem LaneManager.cycleStart_cutInCycle (x : LaneManager) :
    (x.cycleStart).cutInCycle = false := rfl

/-! ### LaneAudio.rejoin -/

@[simp] theorem LaneAudio.rejoin_tx (x : LaneAudio) : (x.rejoin).tx = none := rfl
@[simp] theorem LaneAudio.rejoin_lanes (x : LaneAudio) :
    (x.rejoin).lanes = Vector.replicate 4 LaneRx.reset := rfl
@[simp] theorem LaneAudio.rejoin_unlisted (x : LaneAudio) : (x.rejoin).unlisted = x.unlisted := rfl

/-! ### Mix.cycleStart -/

@[simp] theorem Mix.cycleStart_playing (b : Bool) (x : Mix) :
    (x.cycleStart b).playing = x.next := rfl
@[simp] theorem Mix.cycleStart_next (b : Bool) (x : Mix) :
    (x.cycleStart b).next = Buffer.zeros := rfl
@[simp] theorem Mix.cycleStart_nextStatus (b : Bool) (x : Mix) :
    (x.cycleStart b).nextStatus = .empty := rfl
@[simp] theorem Mix.cycleStart_formingNext (b : Bool) (x : Mix) :
    (x.cycleStart b).formingNext = none := rfl
@[simp] theorem Mix.cycleStart_formingPlaying (b : Bool) (x : Mix) :
    (x.cycleStart b).formingPlaying = x.formingNext := rfl
@[simp] theorem Mix.cycleStart_formingLeft (b : Bool) (x : Mix) :
    (x.cycleStart b).formingLeft = x.formingLeft ++ x.formingPlaying.toList.map (·.set) := rfl
@[simp] theorem Mix.cycleStart_closed (b : Bool) (x : Mix) : (x.cycleStart b).closed = b := rfl
@[simp] theorem Mix.cycleStart_sets (b : Bool) (x : Mix) : (x.cycleStart b).sets = x.sets := rfl
@[simp] theorem Mix.cycleStart_refAge (b : Bool) (x : Mix) : (x.cycleStart b).refAge = 0 := rfl
@[simp] theorem Mix.cycleStart_oclk (b : Bool) (x : Mix) : (x.cycleStart b).oclk = x.oclk := rfl
@[simp] theorem Mix.cycleStart_frame (b : Bool) (x : Mix) : (x.cycleStart b).frame = x.frame := rfl

/-! ### Mix.takeSet -/

@[simp] theorem Mix.takeSet_playing (c : ContributionSet) (x : Mix) :
    (x.takeSet c).playing = x.playing := rfl
@[simp] theorem Mix.takeSet_next (c : ContributionSet) (x : Mix) :
    (x.takeSet c).next = x.next := rfl
@[simp] theorem Mix.takeSet_nextStatus (c : ContributionSet) (x : Mix) :
    (x.takeSet c).nextStatus = .forming := rfl
@[simp] theorem Mix.takeSet_formingNext (c : ContributionSet) (x : Mix) :
    (x.takeSet c).formingNext = some { set := c, number := x.sets + 1, age := 0 } := rfl
@[simp] theorem Mix.takeSet_formingPlaying (c : ContributionSet) (x : Mix) :
    (x.takeSet c).formingPlaying = x.formingPlaying := rfl
@[simp] theorem Mix.takeSet_formingLeft (c : ContributionSet) (x : Mix) :
    (x.takeSet c).formingLeft = x.formingLeft := rfl
@[simp] theorem Mix.takeSet_closed (c : ContributionSet) (x : Mix) :
    (x.takeSet c).closed = x.closed := rfl
@[simp] theorem Mix.takeSet_sets (c : ContributionSet) (x : Mix) :
    (x.takeSet c).sets = x.sets + 1 := rfl
@[simp] theorem Mix.takeSet_refAge (c : ContributionSet) (x : Mix) :
    (x.takeSet c).refAge = x.refAge := rfl
@[simp] theorem Mix.takeSet_oclk (c : ContributionSet) (x : Mix) :
    (x.takeSet c).oclk = x.oclk := rfl
@[simp] theorem Mix.takeSet_frame (c : ContributionSet) (x : Mix) :
    (x.takeSet c).frame = x.frame := rfl

/-! ### Capture.pdmSample -/

@[simp] theorem Capture.pdmSample_slots (b : Bool) (x : Capture) :
    (x.pdmSample b).slots = x.slots := rfl
@[simp] theorem Capture.pdmSample_fill (b : Bool) (x : Capture) :
    (x.pdmSample b).fill = x.fill := rfl
@[simp] theorem Capture.pdmSample_transition (b : Bool) (x : Capture) :
    (x.pdmSample b).transition = (x.transition || (b != x.lastPdm)) := rfl
@[simp] theorem Capture.pdmSample_lastPdm (b : Bool) (x : Capture) :
    (x.pdmSample b).lastPdm = b := rfl
@[simp] theorem Capture.pdmSample_history (b : Bool) (x : Capture) :
    (x.pdmSample b).history = PdmEvent.bit b :: x.history := rfl
@[simp] theorem Capture.pdmSample_dcIn (b : Bool) (x : Capture) :
    (x.pdmSample b).dcIn = x.dcIn := rfl
@[simp] theorem Capture.pdmSample_dcOut (b : Bool) (x : Capture) :
    (x.pdmSample b).dcOut = x.dcOut := rfl
@[simp] theorem Capture.pdmSample_firstFrame (b : Bool) (x : Capture) :
    (x.pdmSample b).firstFrame = x.firstFrame := rfl
@[simp] theorem Capture.pdmSample_mic (b : Bool) (x : Capture) : (x.pdmSample b).mic = x.mic := rfl
@[simp] theorem Capture.pdmSample_stuckCount (b : Bool) (x : Capture) :
    (x.pdmSample b).stuckCount = x.stuckCount := rfl
@[simp] theorem Capture.pdmSample_goodCount (b : Bool) (x : Capture) :
    (x.pdmSample b).goodCount = x.goodCount := rfl

/-! ### LineTx.stop -/

@[simp] theorem LineTx.stop_kind (x : LineTx) : x.stop.kind = x.kind := rfl
@[simp] theorem LineTx.stop_bits (x : LineTx) : x.stop.bits = x.bits.take (x.sent + 1) := rfl
@[simp] theorem LineTx.stop_sent (x : LineTx) : x.stop.sent = x.sent := rfl

/-! ### Arbiter -/

@[simp] theorem Arbiter.elapse_write (n : Nat) (x : Arbiter) :
    (x.elapse n).write = (x.write && decide (n = 0)) := rfl
@[simp] theorem Arbiter.elapse_reads (n : Nat) (x : Arbiter) :
    (x.elapse n).reads = ((serve (opportunities * n) x.write.toNat x.reads).map fun r => { r with due := r.due - n }) := rfl
@[simp] theorem Arbiter.raiseWrite_write (x : Arbiter) : x.raiseWrite.write = true := rfl
@[simp] theorem Arbiter.raiseWrite_reads (x : Arbiter) : x.raiseWrite.reads = x.reads := rfl
@[simp] theorem Arbiter.raiseDetector_write (b : Bool) (k : Fin 4) (x : Arbiter) :
    (x.raiseDetector b k).write = x.write := rfl
@[simp] theorem Arbiter.raiseDetector_reads (b : Bool) (k : Fin 4) (x : Arbiter) :
    (x.raiseDetector b k).reads = insertReads b (detectorReads k) x.reads := rfl
@[simp] theorem Arbiter.raiseTransmitter_write (b : Bool) (k : Fin 4) (x : Arbiter) :
    (x.raiseTransmitter b k).write = x.write := rfl
@[simp] theorem Arbiter.raiseTransmitter_reads (b : Bool) (k : Fin 4) (x : Arbiter) :
    (x.raiseTransmitter b k).reads = insertReads b (transmitterReads k) x.reads := rfl
@[simp] theorem Arbiter.endTransmitter_write (x : Arbiter) : x.endTransmitter.write = x.write := rfl
@[simp] theorem Arbiter.endTransmitter_reads (x : Arbiter) :
    x.endTransmitter.reads = x.reads.filter fun r => decide (r.reader ≠ .transmitter) := rfl

end Sys2Proof.Machine
end

