-- ==== Sys2Proof/Laws/Status.lean ====
section
/-! SUPPORT. The status queue: what a push can do, and that every push keeps it sound. -/

namespace Sys2Proof.Machine

theorem sameKey_comm (x y : RecordBody) : sameKey x y = sameKey y x := by
  cases x <;> cases y <;> simp [sameKey, Bool.beq_comm]

theorem sameKey_trans_false {x y z : RecordBody} (h : sameKey x y = true) (hz : sameKey x z = false) :
    sameKey y z = false := by
  cases x <;> cases y <;> simp [sameKey] at h <;> cases z <;> simp_all [sameKey]

theorem sameKey_mergeBody (q r x : RecordBody) : sameKey (mergeBody q r) x = sameKey r x := by
  cases q <;> cases r <;> cases x <;> rfl

/-- A record that finds no record of its key in the queue is not merged, and only such a one. -/
theorem coalesce_eq_none (r : Record) (q : List Record) :
    coalesce r q = none ↔ ∀ x ∈ q, sameKey x.body r.body = false := by
  induction q with
  | nil => simp [coalesce]
  | cons x rest ih =>
    simp only [coalesce, List.forall_mem_cons]
    split <;> simp_all

/-- What a merge does: one queued record of the key takes the new contents in its place. -/
theorem coalesce_eq_some {r : Record} {q q' : List Record} (h : coalesce r q = some q') :
    ∃ l x m, q = l ++ x :: m ∧ sameKey x.body r.body = true ∧
      (∀ y ∈ l, sameKey y.body r.body = false) ∧
      q' = l ++ { cycle := r.cycle, body := mergeBody x.body r.body } :: m := by
  induction q generalizing q' with
  | nil => simp [coalesce] at h
  | cons x rest ih =>
    simp only [coalesce] at h
    split at h
    · next hk => exact ⟨[], x, rest, rfl, hk, by simp, by simpa using h.symm⟩
    · next hk =>
      obtain ⟨q0, h0, rfl⟩ := Option.map_eq_some_iff.mp h
      obtain ⟨l, y, m, rfl, hy, hl, rfl⟩ := ih h0
      refine ⟨x :: l, y, m, rfl, hy, ?_, rfl⟩
      intro z hz
      rcases List.mem_cons.mp hz with rfl | hz
      · simpa using hk
      · exact hl z hz

/-- What a push can do (R164, R166): a merge in place, a record at the tail, or a discard that sets the
overrun flag. -/
theorem StatusPort.push_cases (p : StatusPort) (r : Record) :
    (∃ l x m, p.queue = l ++ x :: m ∧ sameKey x.body r.body = true ∧
      p.push r = { p with
        queue := l ++ { cycle := r.cycle, body := mergeBody x.body r.body } :: m }) ∨
    ((∀ x ∈ p.queue, sameKey x.body r.body = false) ∧ p.queue.length < 16 ∧
      p.push r = { p with queue := p.queue ++ [r] }) ∨
    ((∀ x ∈ p.queue, sameKey x.body r.body = false) ∧ 16 ≤ p.queue.length ∧
      p.push r = { p with overrun := true }) := by
  unfold StatusPort.push
  split
  · next q hq =>
    obtain ⟨l, x, m, he, hk, -, rfl⟩ := coalesce_eq_some hq
    exact .inl ⟨l, x, m, he, hk, rfl⟩
  · next hq =>
    have := (coalesce_eq_none r p.queue).mp hq
    split
    · next h => exact .inr (.inl ⟨this, h, rfl⟩)
    · next h => exact .inr (.inr ⟨this, by omega, rfl⟩)

/-- A push touches nothing but the queue and the overrun flag. -/
theorem StatusPort.push_frame (p : StatusPort) (r : Record) :
    (p.push r).tx = p.tx ∧ (p.push r).summaryCount = p.summaryCount ∧
      (p.push r).bitClock = p.bitClock ∧ (p.push r).nextFree = p.nextFree := by
  rcases p.push_cases r with ⟨l, x, m, -, -, h⟩ | ⟨-, -, h⟩ | ⟨-, -, h⟩ <;> rw [h] <;> simp

/-- So does a group of records. -/
theorem StatusPort.pushAll_frame (p : StatusPort) (c : BitVec 16) (bs : List RecordBody) :
    (p.pushAll c bs).tx = p.tx ∧ (p.pushAll c bs).summaryCount = p.summaryCount ∧
      (p.pushAll c bs).bitClock = p.bitClock ∧ (p.pushAll c bs).nextFree = p.nextFree := by
  unfold StatusPort.pushAll
  induction bs generalizing p with
  | nil => simp
  | cons b bs ih =>
    have h1 := ih (p.push { cycle := c, body := b })
    have h2 := p.push_frame { cycle := c, body := b }
    simp only [List.foldl_cons]
    exact ⟨h1.1.trans h2.1, h1.2.1.trans h2.2.1, h1.2.2.1.trans h2.2.2.1, h1.2.2.2.trans h2.2.2.2⟩

@[simp] theorem StatusPort.pushAll_tx (p : StatusPort) (c : BitVec 16) (bs : List RecordBody) :
    (p.pushAll c bs).tx = p.tx := (p.pushAll_frame c bs).1

@[simp] theorem StatusPort.pushAll_summaryCount (p : StatusPort) (c : BitVec 16)
    (bs : List RecordBody) : (p.pushAll c bs).summaryCount = p.summaryCount :=
  (p.pushAll_frame c bs).2.1

@[simp] theorem StatusPort.pushAll_bitClock (p : StatusPort) (c : BitVec 16) (bs : List RecordBody) :
    (p.pushAll c bs).bitClock = p.bitClock := (p.pushAll_frame c bs).2.2.1

@[simp] theorem StatusPort.pushAll_nextFree (p : StatusPort) (c : BitVec 16) (bs : List RecordBody) :
    (p.pushAll c bs).nextFree = p.nextFree := (p.pushAll_frame c bs).2.2.2

@[simp] theorem StatusPort.pushAll_nil (p : StatusPort) (c : BitVec 16) : p.pushAll c [] = p := rfl

/-- No record, no change. -/
@[simp] theorem State.raise_nil (s : State) : s.raise [] = s := rfl

end Sys2Proof.Machine
end

