-- ==== Sys2Proof/Laws/Vectors.lean ====
section
/-! SUPPORT. Reading a vector after `put`, and the lane of an address in a lane table. -/

namespace Sys2Proof

@[simp] theorem put_getElem {α : Type} {n : Nat} (v : Vector α n) (i : Fin n) (a : α) (k : Nat)
    (hk : k < n) : (put v i a)[k] = if i.val = k then a else v[k] := by
  simp [put, Vector.getElem_set]

theorem put_get {α : Type} {n : Nat} (v : Vector α n) (i j : Fin n) (a : α) :
    (put v i a)[j] = if i = j then a else v[j] := by
  simp [Fin.ext_iff]

theorem put_get_self {α : Type} {n : Nat} (v : Vector α n) (i : Fin n) (a : α) :
    (put v i a)[i] = a := by
  simp

theorem put_get_ne {α : Type} {n : Nat} (v : Vector α n) {i j : Fin n} (a : α) (h : i ≠ j) :
    (put v i a)[j] = v[j] := by
  rw [put_get, if_neg h]

theorem ofFn_get {α : Type} {n : Nat} (f : Fin n → α) (i : Fin n) : (Vector.ofFn f)[i] = f i := by
  simp

theorem replicate_get {α : Type} {n : Nat} (a : α) (i : Fin n) : (Vector.replicate n a)[i] = a := by
  simp

/-- Vectors that agree at every place are equal. -/
theorem vector_ext_fin {α : Type} {n : Nat} {v w : Vector α n} (h : ∀ i : Fin n, v[i] = w[i]) : v = w :=
  Vector.ext fun i hi => h ⟨i, hi⟩

namespace Machine

theorem LaneTable.laneOf_some {t : LaneTable} {a : Addr} {l : Lane} (h : t.laneOf a = some l) :
    t[l].owner = some a := by
  have := List.find?_some h
  simpa using this

theorem LaneTable.laneOf_none {t : LaneTable} {a : Addr} :
    t.laneOf a = none ↔ ∀ l : Lane, t[l].owner ≠ some a := by
  simp [LaneTable.laneOf]

theorem LaneTable.laneOf_isSome {t : LaneTable} {a : Addr} :
    (t.laneOf a).isSome ↔ ∃ l : Lane, t[l].owner = some a := by
  rw [← not_iff_not]
  simp [LaneTable.laneOf_none]

end Machine

end Sys2Proof
end

