-- ==== Sys2Proof/Laws/Tables.lean ====
section
/-! SUPPORT. Lane tables: leaving an address out, and the abrupt own cut. -/

namespace Sys2Proof.Machine

/-! ## A table without an address -/

theorem LaneTable.without_get (t : LaneTable) (a : Addr) (l : Lane) :
    (t.without a)[l] = if t[l].owner = some a then .free else t[l] := by
  simp [LaneTable.without]

@[simp] theorem LaneEntry.owner_free : LaneEntry.free.owner = none := rfl

/-- An owner that is left was there, and is another address. -/
theorem LaneTable.without_owner {t : LaneTable} {a b : Addr} {l : Lane}
    (h : (t.without a)[l].owner = some b) : t[l].owner = some b ∧ b ≠ a := by
  rw [LaneTable.without_get] at h
  split at h
  · simp at h
  · next hne => exact ⟨h, fun hb => hne (hb ▸ h)⟩

@[simp] theorem LaneTable.without_laneOf (t : LaneTable) (a : Addr) : (t.without a).laneOf a = none :=
  LaneTable.laneOf_none.mpr fun _ h => (LaneTable.without_owner h).2 rfl

/-- A legal table stays legal without an address. -/
theorem LaneTable.Legal.without {m : Nat} {t : LaneTable} (h : t.Legal m) (a : Addr) :
    (t.without a).Legal m where
  unused l hl := by rw [LaneTable.without_get, h.unused l hl]; simp
  single k l b hk hl :=
    h.single k l b (LaneTable.without_owner hk).1 (LaneTable.without_owner hl).1

theorem LaneTable.allFree_get (l : Lane) : LaneTable.allFree[l] = .free := by
  simp [LaneTable.allFree]

@[simp] theorem LaneTable.allFree_laneOf (a : Addr) : LaneTable.allFree.laneOf a = none :=
  LaneTable.laneOf_none.mpr fun l => by rw [LaneTable.allFree_get]; simp

theorem LaneTable.allFree_legal (m : Nat) : LaneTable.allFree.Legal m where
  unused l _ := LaneTable.allFree_get l
  single k l a hk := by rw [LaneTable.allFree_get] at hk; simp at hk

/-- The owners decide whether a table is legal, once lanes without an owner are FREE. -/
theorem LaneEntry.owner_eq_none {e : LaneEntry} : e.owner = none ↔ e = .free := by
  cases e <;> simp [LaneEntry.owner]

/-- The digest of the all-FREE table (R108). -/
theorem LaneTable.allFree_digest : LaneTable.allFree.digest = crc16 (List.replicate 24 false) := by
  decide +kernel

/-! ## The abrupt own cut (R86) -/

@[simp] theorem State.cutOwnLane_inReset (g : GateReason) (s : State) :
    (s.cutOwnLane g).1.inReset = s.inReset := by
  unfold State.cutOwnLane; split <;> rfl

@[simp] theorem State.cutOwnLane_capture (g : GateReason) (s : State) :
    (s.cutOwnLane g).1.capture = s.capture := by
  unfold State.cutOwnLane; split <;> rfl

@[simp] theorem State.cutOwnLane_detector (g : GateReason) (s : State) :
    (s.cutOwnLane g).1.detector = s.detector := by
  unfold State.cutOwnLane; split <;> rfl

@[simp] theorem State.cutOwnLane_beat (g : GateReason) (s : State) :
    (s.cutOwnLane g).1.beat = s.beat := by
  unfold State.cutOwnLane; split <;> rfl

@[simp] theorem State.cutOwnLane_census (g : GateReason) (s : State) :
    (s.cutOwnLane g).1.census = s.census := by
  unfold State.cutOwnLane; split <;> rfl

@[simp] theorem State.cutOwnLane_mix (g : GateReason) (s : State) :
    (s.cutOwnLane g).1.mix = s.mix := by
  unfold State.cutOwnLane; split <;> rfl

@[simp] theorem State.cutOwnLane_keys (g : GateReason) (s : State) :
    (s.cutOwnLane g).1.keys = s.keys := by
  unfold State.cutOwnLane; split <;> rfl

@[simp] theorem State.cutOwnLane_status (g : GateReason) (s : State) :
    (s.cutOwnLane g).1.status = s.status := by
  unfold State.cutOwnLane; split <;> rfl

@[simp] theorem State.cutOwnLane_cycleStarts (g : GateReason) (s : State) :
    (s.cutOwnLane g).1.cycleStarts = s.cycleStarts := by
  unfold State.cutOwnLane; split <;> rfl

@[simp] theorem State.cutOwnLane_pending (g : GateReason) (s : State) :
    (s.cutOwnLane g).1.pending = s.pending := by
  unfold State.cutOwnLane; split <;> rfl

@[simp] theorem State.cutOwnLane_audio_lanes (g : GateReason) (s : State) :
    (s.cutOwnLane g).1.audio.lanes = s.audio.lanes := by
  unfold State.cutOwnLane; split <;> rfl

@[simp] theorem State.cutOwnLane_audio_unlisted (g : GateReason) (s : State) :
    (s.cutOwnLane g).1.audio.unlisted = s.audio.unlisted := by
  unfold State.cutOwnLane; split <;> rfl

@[simp] theorem State.cutOwnLane_lanes_request (g : GateReason) (s : State) :
    (s.cutOwnLane g).1.lanes.request = s.lanes.request := by
  unfold State.cutOwnLane; split <;> rfl

@[simp] theorem State.cutOwnLane_lanes_waitAge (g : GateReason) (s : State) :
    (s.cutOwnLane g).1.lanes.waitAge = s.lanes.waitAge := by
  unfold State.cutOwnLane; split <;> rfl

@[simp] theorem State.cutOwnLane_lanes_closingCycle (g : GateReason) (s : State) :
    (s.cutOwnLane g).1.lanes.closingCycle = s.lanes.closingCycle := by
  unfold State.cutOwnLane; split <;> rfl

@[simp] theorem State.cutOwnLane_lanes_divergence (g : GateReason) (s : State) :
    (s.cutOwnLane g).1.lanes.divergence = s.lanes.divergence := by
  unfold State.cutOwnLane; split <;> rfl

@[simp] theorem State.cutOwnLane_own (g : GateReason) (s : State) :
    (s.cutOwnLane g).1.own = s.own := by
  unfold State.cutOwnLane; split <;> rfl

@[simp] theorem State.cutOwnLane_role (g : GateReason) (s : State) :
    (s.cutOwnLane g).1.role = s.role := by
  unfold State.cutOwnLane; split <;> rfl

@[simp] theorem State.cutOwnLane_laneCount (g : GateReason) (s : State) :
    (s.cutOwnLane g).1.laneCount = s.laneCount := by
  unfold State.cutOwnLane; split <;> rfl

@[simp] theorem State.cutOwnLane_delivery (g : GateReason) (s : State) :
    (s.cutOwnLane g).1.delivery = s.delivery := by
  unfold State.cutOwnLane; split <;> rfl


@[simp] theorem State.cutOwnLane_line_stopped (g : GateReason) (s : State) :
    (s.cutOwnLane g).1.line.stopped = s.line.stopped := by
  unfold State.cutOwnLane; split <;> rfl

@[simp] theorem State.cutOwnLane_line_candidate (g : GateReason) (s : State) :
    (s.cutOwnLane g).1.line.candidate = s.line.candidate := by
  unfold State.cutOwnLane; split <;> rfl

@[simp] theorem State.cutOwnLane_line_beatQuiet (g : GateReason) (s : State) :
    (s.cutOwnLane g).1.line.beatQuiet = s.line.beatQuiet := by
  unfold State.cutOwnLane; split <;> rfl

@[simp] theorem State.cutOwnLane_line_slotFree (g : GateReason) (s : State) :
    (s.cutOwnLane g).1.line.slotFree = s.line.slotFree := by
  unfold State.cutOwnLane; split <;> rfl

@[simp] theorem State.cutOwnLane_line_reportSpans (g : GateReason) (s : State) :
    (s.cutOwnLane g).1.line.reportSpans = s.line.reportSpans := by
  unfold State.cutOwnLane; split <;> rfl

@[simp] theorem State.cutOwnLane_line_laneSpans (g : GateReason) (s : State) :
    (s.cutOwnLane g).1.line.laneSpans = s.line.laneSpans := by
  unfold State.cutOwnLane; split <;> rfl

/-- What a cut does to the driver and to the bank reads: nothing without an own lane, else an own lane frame
stops (R86). -/
theorem State.cutOwnLane_line_tx (g : GateReason) (s : State) :
    (s.cutOwnLane g).1.line.tx = s.line.tx ∨ (s.cutOwnLane g).1.line.tx = s.line.stopLane.tx := by
  unfold State.cutOwnLane; split
  · exact .inl rfl
  · exact .inr rfl

theorem State.cutOwnLane_arbiter (g : GateReason) (s : State) :
    (s.cutOwnLane g).1.arbiter = s.arbiter ∨
      (s.cutOwnLane g).1.arbiter = s.arbiter.endTransmitter := by
  unfold State.cutOwnLane; split
  · exact .inl rfl
  · exact .inr rfl

/-- After a cut neither table lists the own address (R86). -/
@[simp] theorem State.cutOwnLane_table_laneOf (g : GateReason) (s : State) :
    (s.cutOwnLane g).1.lanes.table.laneOf s.own = none := by
  unfold State.cutOwnLane
  split
  · next h => exact h
  · simp

@[simp] theorem State.cutOwnLane_slotCopy_laneOf (g : GateReason) (s : State) :
    (s.cutOwnLane g).1.lanes.slotCopy.laneOf s.own = none := by
  unfold State.cutOwnLane
  split <;> simp

/-- The tables that a cut leaves: those before, or those without the own address. -/
theorem State.cutOwnLane_table (g : GateReason) (s : State) :
    (s.cutOwnLane g).1.lanes.table = s.lanes.table.without s.own := by
  unfold State.cutOwnLane
  split
  · next h =>
    refine vector_ext_fin fun l => ?_
    rw [LaneTable.without_get, if_neg (LaneTable.laneOf_none.mp h l)]
  · rfl

@[simp] theorem State.cutOwnLane_slotCopy (g : GateReason) (s : State) :
    (s.cutOwnLane g).1.lanes.slotCopy = s.lanes.slotCopy.without s.own := by
  unfold State.cutOwnLane
  split <;> rfl

/-- A cut leaves the digest that of the table (R86, R99). -/
theorem State.cutOwnLane_digest (g : GateReason) (s : State)
    (h : s.lanes.digest = s.lanes.table.digest) :
    (s.cutOwnLane g).1.lanes.digest = (s.cutOwnLane g).1.lanes.table.digest := by
  unfold State.cutOwnLane
  split
  · exact h
  · rfl

/-- What a cut does when the table lists an own lane (R86, R123). -/
theorem State.cutOwnLane_of_owner {g : GateReason} {s : State} {l : Lane}
    (h : s.lanes.table.laneOf s.own = some l) :
    s.cutOwnLane g =
      ({ s.dropLaneTx with
          lanes := { s.lanes with
            table := s.lanes.table.without s.own
            slotCopy := s.lanes.slotCopy.without s.own
            releasePending := none
            idleHold := false
            digest := (s.lanes.table.without s.own).digest
            laneCollisions := 0
            cutInCycle := true } },
        [.gate l false g]) := by
  simp only [State.cutOwnLane, h]

end Sys2Proof.Machine
end

