-- ==== Sys2Proof/Laws/Cycle.lean ====
section
/-! SUPPORT. Closing a cycle's lane spans, the rejoin, the cycle start: what each changes. -/

namespace Sys2Proof.Machine

/-! ## Closing the lane spans (R45, R136) -/

/-- One lane of `closeLanes`. -/
theorem closeLanes_fold (ls : List Lane) (hn : ls.Nodup) (s : State) :
    ∃ (sp : Vector Bool 4) (au : Vector LaneRx 4),
      ls.foldl (fun s l => if s.line.laneSpans[l] then s.judgeLane l none else s) s =
        { s with line := { s.line with laneSpans := sp }, audio := { s.audio with lanes := au } } ∧
      (∀ k : Lane, sp[k] = if k ∈ ls then false else s.line.laneSpans[k]) ∧
      ∀ k : Lane, au[k] = if k ∈ ls ∧ s.line.laneSpans[k] = true
        then s.audio.lanes[k].judge s.lanes.slotCopy[k] s.own none else s.audio.lanes[k] := by
  induction ls generalizing s with
  | nil => exact ⟨s.line.laneSpans, s.audio.lanes, rfl, by simp, by simp⟩
  | cons l ls ih =>
    have hn' := List.nodup_cons.mp hn
    by_cases h : s.line.laneSpans[l] = true
    · obtain ⟨sp, au, he, hsp, hau⟩ := ih hn'.2 (s.judgeLane l none)
      refine ⟨sp, au, ?_, fun k => ?_, fun k => ?_⟩
      · rw [List.foldl_cons, if_pos h, he]
        rfl
      · rw [hsp k, State.judgeLane_line_laneSpans, put_get]
        by_cases hk : l = k
        · subst hk; simp
        · simp [hk, Ne.symm hk]
      · rw [hau k, State.judgeLane_line_laneSpans, State.judgeLane_audio_lanes,
          State.judgeLane_lanes, State.judgeLane_own, put_get, put_get]
        by_cases hk : l = k
        · subst hk; simp [hn'.1, h]
        · simp [hk, Ne.symm hk]
    · obtain ⟨sp, au, he, hsp, hau⟩ := ih hn'.2 s
      refine ⟨sp, au, ?_, fun k => ?_, fun k => ?_⟩
      · rw [List.foldl_cons, if_neg h, he]
      · rw [hsp k]
        by_cases hk : l = k
        · subst hk; simp [hn'.1]; simpa using h
        · simp [Ne.symm hk]
      · rw [hau k]
        by_cases hk : l = k
        · subst hk
          simp only [h]
          simp
        · simp [Ne.symm hk]

/-- What `closeLanes` does: each lane whose span was left is judged as missing, no lane span is left, and
when there was one the set goes to the mix unit. -/
theorem State.closeLanes_spec (s : State) :
    ∃ (au : Vector LaneRx 4) (m : Mix),
      s.closeLanes = { s with
        line := { s.line with laneSpans := Vector.replicate 4 false }
        audio := { s.audio with lanes := au }
        mix := m } ∧
      (∀ k : Lane, au[k] = if s.line.laneSpans[k] = true
        then s.audio.lanes[k].judge s.lanes.slotCopy[k] s.own none else s.audio.lanes[k]) ∧
      m = if s.line.lanesDelivered = true then s.mix
        else s.mix.takeSet (LaneAudio.contributions { s.audio with lanes := au }) := by
  have hd : s.line.lanesDelivered = true ↔ ∀ k : Lane, s.line.laneSpans[k] = false := by
    simp [Line.lanesDelivered, Fin.forall_iff]
  by_cases h : s.line.lanesDelivered = true
  · have hk := hd.mp h
    refine ⟨s.audio.lanes, s.mix, ?_, fun k => by simp only [hk k]; simp, by simp [h]⟩
    have : s.line.laneSpans = Vector.replicate 4 false := vector_ext_fin fun k => by simpa using hk k
    simp only [State.closeLanes, h, if_true, ← this]
  · obtain ⟨sp, au, he, hsp, hau⟩ := closeLanes_fold (List.finRange 4) (List.nodup_finRange 4) s
    have hs : sp = Vector.replicate 4 false := vector_ext_fin fun k => by rw [hsp k]; simp
    subst hs
    refine ⟨au, s.mix.takeSet (LaneAudio.contributions { s.audio with lanes := au }), ?_,
      fun k => by rw [hau k]; simp, by simp [h]⟩
    rw [State.closeLanes, if_neg h]
    dsimp only
    rw [he]
    exact if_pos rfl

@[simp] theorem State.closeLanes_inReset (s : State) :
    s.closeLanes.inReset = s.inReset := by
  obtain ⟨_, _, h, -⟩ := s.closeLanes_spec; rw [h]

@[simp] theorem State.closeLanes_capture (s : State) :
    s.closeLanes.capture = s.capture := by
  obtain ⟨_, _, h, -⟩ := s.closeLanes_spec; rw [h]

@[simp] theorem State.closeLanes_detector (s : State) :
    s.closeLanes.detector = s.detector := by
  obtain ⟨_, _, h, -⟩ := s.closeLanes_spec; rw [h]

@[simp] theorem State.closeLanes_beat (s : State) :
    s.closeLanes.beat = s.beat := by
  obtain ⟨_, _, h, -⟩ := s.closeLanes_spec; rw [h]

@[simp] theorem State.closeLanes_census (s : State) :
    s.closeLanes.census = s.census := by
  obtain ⟨_, _, h, -⟩ := s.closeLanes_spec; rw [h]

@[simp] theorem State.closeLanes_lanes (s : State) :
    s.closeLanes.lanes = s.lanes := by
  obtain ⟨_, _, h, -⟩ := s.closeLanes_spec; rw [h]

@[simp] theorem State.closeLanes_keys (s : State) :
    s.closeLanes.keys = s.keys := by
  obtain ⟨_, _, h, -⟩ := s.closeLanes_spec; rw [h]

@[simp] theorem State.closeLanes_status (s : State) :
    s.closeLanes.status = s.status := by
  obtain ⟨_, _, h, -⟩ := s.closeLanes_spec; rw [h]

@[simp] theorem State.closeLanes_cycleStarts (s : State) :
    s.closeLanes.cycleStarts = s.cycleStarts := by
  obtain ⟨_, _, h, -⟩ := s.closeLanes_spec; rw [h]

@[simp] theorem State.closeLanes_pending (s : State) :
    s.closeLanes.pending = s.pending := by
  obtain ⟨_, _, h, -⟩ := s.closeLanes_spec; rw [h]

@[simp] theorem State.closeLanes_line_tx (s : State) :
    s.closeLanes.line.tx = s.line.tx := by
  obtain ⟨_, _, h, -⟩ := s.closeLanes_spec; rw [h]

@[simp] theorem State.closeLanes_line_candidate (s : State) :
    s.closeLanes.line.candidate = s.line.candidate := by
  obtain ⟨_, _, h, -⟩ := s.closeLanes_spec; rw [h]

@[simp] theorem State.closeLanes_line_reportSpans (s : State) :
    s.closeLanes.line.reportSpans = s.line.reportSpans := by
  obtain ⟨_, _, h, -⟩ := s.closeLanes_spec; rw [h]

@[simp] theorem State.closeLanes_audio_tx (s : State) :
    s.closeLanes.audio.tx = s.audio.tx := by
  obtain ⟨_, _, h, -⟩ := s.closeLanes_spec; rw [h]

@[simp] theorem State.closeLanes_audio_unlisted (s : State) :
    s.closeLanes.audio.unlisted = s.audio.unlisted := by
  obtain ⟨_, _, h, -⟩ := s.closeLanes_spec; rw [h]

@[simp] theorem State.closeLanes_arbiter (s : State) :
    s.closeLanes.arbiter = s.arbiter := by
  obtain ⟨_, _, h, -⟩ := s.closeLanes_spec; rw [h]

@[simp] theorem State.closeLanes_line_stopped (s : State) :
    s.closeLanes.line.stopped = s.line.stopped := by
  obtain ⟨_, _, h, -⟩ := s.closeLanes_spec; rw [h]

@[simp] theorem State.closeLanes_line_beatQuiet (s : State) :
    s.closeLanes.line.beatQuiet = s.line.beatQuiet := by
  obtain ⟨_, _, h, -⟩ := s.closeLanes_spec; rw [h]

@[simp] theorem State.closeLanes_line_slotFree (s : State) :
    s.closeLanes.line.slotFree = s.line.slotFree := by
  obtain ⟨_, _, h, -⟩ := s.closeLanes_spec; rw [h]

@[simp] theorem State.closeLanes_own (s : State) :
    s.closeLanes.own = s.own := by
  obtain ⟨_, _, h, -⟩ := s.closeLanes_spec; rw [h]; rfl

@[simp] theorem State.closeLanes_role (s : State) :
    s.closeLanes.role = s.role := by
  obtain ⟨_, _, h, -⟩ := s.closeLanes_spec; rw [h]; rfl

@[simp] theorem State.closeLanes_laneCount (s : State) :
    s.closeLanes.laneCount = s.laneCount := by
  obtain ⟨_, _, h, -⟩ := s.closeLanes_spec; rw [h]; rfl

@[simp] theorem State.closeLanes_mix_playing (s : State) :
    s.closeLanes.mix.playing = s.mix.playing := by
  obtain ⟨_, _, h, -, hm⟩ := s.closeLanes_spec; rw [h, hm]; split <;> rfl

@[simp] theorem State.closeLanes_mix_next (s : State) :
    s.closeLanes.mix.next = s.mix.next := by
  obtain ⟨_, _, h, -, hm⟩ := s.closeLanes_spec; rw [h, hm]; split <;> rfl

@[simp] theorem State.closeLanes_mix_formingPlaying (s : State) :
    s.closeLanes.mix.formingPlaying = s.mix.formingPlaying := by
  obtain ⟨_, _, h, -, hm⟩ := s.closeLanes_spec; rw [h, hm]; split <;> rfl

@[simp] theorem State.closeLanes_mix_refAge (s : State) :
    s.closeLanes.mix.refAge = s.mix.refAge := by
  obtain ⟨_, _, h, -, hm⟩ := s.closeLanes_spec; rw [h, hm]; split <;> rfl

@[simp] theorem State.closeLanes_mix_oclk (s : State) :
    s.closeLanes.mix.oclk = s.mix.oclk := by
  obtain ⟨_, _, h, -, hm⟩ := s.closeLanes_spec; rw [h, hm]; split <;> rfl

@[simp] theorem State.closeLanes_mix_frame (s : State) :
    s.closeLanes.mix.frame = s.mix.frame := by
  obtain ⟨_, _, h, -, hm⟩ := s.closeLanes_spec; rw [h, hm]; split <;> rfl

@[simp] theorem State.closeLanes_mix_closed (s : State) :
    s.closeLanes.mix.closed = s.mix.closed := by
  obtain ⟨_, _, h, -, hm⟩ := s.closeLanes_spec; rw [h, hm]; split <;> rfl

@[simp] theorem State.closeLanes_laneSent (s : State) : s.closeLanes.laneSent = s.laneSent := by
  obtain ⟨_, _, h, -⟩ := s.closeLanes_spec; rw [h]; rfl

/-! ## A realigning cycle start closes the left cycle (R45) -/

@[simp] theorem State.realign_inReset (s : State) :
    s.realign.inReset = s.inReset := by
  exact s.closeLanes_inReset

@[simp] theorem State.realign_capture (s : State) :
    s.realign.capture = s.capture := by
  exact s.closeLanes_capture

@[simp] theorem State.realign_detector (s : State) :
    s.realign.detector = s.detector := by
  exact s.closeLanes_detector

@[simp] theorem State.realign_beat (s : State) :
    s.realign.beat = s.beat := by
  exact s.closeLanes_beat

@[simp] theorem State.realign_lanes (s : State) :
    s.realign.lanes = s.lanes := by
  exact s.closeLanes_lanes

@[simp] theorem State.realign_keys (s : State) :
    s.realign.keys = s.keys := by
  exact s.closeLanes_keys

@[simp] theorem State.realign_status (s : State) :
    s.realign.status = s.status := by
  exact s.closeLanes_status

@[simp] theorem State.realign_cycleStarts (s : State) :
    s.realign.cycleStarts = s.cycleStarts := by
  exact s.closeLanes_cycleStarts

@[simp] theorem State.realign_pending (s : State) :
    s.realign.pending = s.pending := by
  exact s.closeLanes_pending

@[simp] theorem State.realign_own (s : State) :
    s.realign.own = s.own := by
  exact s.closeLanes_own

@[simp] theorem State.realign_role (s : State) :
    s.realign.role = s.role := by
  exact s.closeLanes_role

@[simp] theorem State.realign_laneCount (s : State) :
    s.realign.laneCount = s.laneCount := by
  exact s.closeLanes_laneCount

@[simp] theorem State.realign_line_tx (s : State) :
    s.realign.line.tx = s.line.tx.map LineTx.stop := by
  simp [State.realign]

@[simp] theorem State.realign_line_stopped (s : State) :
    s.realign.line.stopped = s.line.stopped ++ s.laneSent := by
  simp [State.realign]

@[simp] theorem State.realign_line_beatQuiet (s : State) :
    s.realign.line.beatQuiet = s.line.beatQuiet := by
  simp [State.realign]

@[simp] theorem State.realign_arbiter (s : State) : s.realign.arbiter = s.arbiter := by
  exact s.closeLanes_arbiter

@[simp] theorem State.realign_line_candidate (s : State) :
    s.realign.line.candidate = s.line.candidate := by
  simp [State.realign]

@[simp] theorem State.realign_line_reportSpans (s : State) :
    s.realign.line.reportSpans = s.line.reportSpans := by
  simp [State.realign]

@[simp] theorem State.realign_census_peers (s : State) :
    s.realign.census.peers = s.census.peers := by
  simp [State.realign]

@[simp] theorem State.realign_census_entries (s : State) :
    s.realign.census.entries = s.census.entries := by
  simp [State.realign]

@[simp] theorem State.realign_census_readback (s : State) :
    s.realign.census.readback = s.census.readback := by
  simp [State.realign]

@[simp] theorem State.realign_census_ownCollisions (s : State) :
    s.realign.census.ownCollisions = s.census.ownCollisions := by
  simp [State.realign]

@[simp] theorem State.realign_census_conflictWait (s : State) :
    s.realign.census.conflictWait = s.census.conflictWait := by
  simp [State.realign]

@[simp] theorem State.realign_census_reportTx (s : State) :
    s.realign.census.reportTx = none := by
  simp [State.realign]

@[simp] theorem State.realign_audio_lanes (s : State) :
    s.realign.audio.lanes = s.closeLanes.audio.lanes := by
  simp [State.realign]

@[simp] theorem State.realign_audio_unlisted (s : State) :
    s.realign.audio.unlisted = s.audio.unlisted := by
  simp [State.realign]

@[simp] theorem State.realign_audio_tx (s : State) :
    s.realign.audio.tx = none := by
  simp [State.realign]

@[simp] theorem State.realign_mix (s : State) :
    s.realign.mix = s.closeLanes.mix := by
  simp [State.realign]

/-! ## Change of sync state -/

/-- The sync state becomes `new` by the shared operation, or stands already. -/
theorem State.moveSync_cases (new : SyncState) (s : State) :
    (new = s.beat.sync ∧ s.moveSync new = s) ∨ (new ≠ s.beat.sync ∧ s.moveSync new = s.setSync new) := by
  unfold State.moveSync
  split
  · exact .inl ⟨by assumption, rfl⟩
  · exact .inr ⟨by assumption, rfl⟩

@[simp] theorem State.moveSync_inReset (new : SyncState) (s : State) :
    (s.moveSync new).inReset = s.inReset := by
  unfold State.moveSync; split <;> rfl

@[simp] theorem State.moveSync_capture (new : SyncState) (s : State) :
    (s.moveSync new).capture = s.capture := by
  unfold State.moveSync; split <;> rfl

@[simp] theorem State.moveSync_arbiter (new : SyncState) (s : State) :
    (s.moveSync new).arbiter = s.arbiter := by
  unfold State.moveSync; split <;> rfl

@[simp] theorem State.moveSync_detector (new : SyncState) (s : State) :
    (s.moveSync new).detector = s.detector := by
  unfold State.moveSync; split <;> rfl

@[simp] theorem State.moveSync_line (new : SyncState) (s : State) :
    (s.moveSync new).line = s.line := by
  unfold State.moveSync; split <;> rfl

@[simp] theorem State.moveSync_lanes (new : SyncState) (s : State) :
    (s.moveSync new).lanes = s.lanes := by
  unfold State.moveSync; split <;> rfl

@[simp] theorem State.moveSync_audio (new : SyncState) (s : State) :
    (s.moveSync new).audio = s.audio := by
  unfold State.moveSync; split <;> rfl

@[simp] theorem State.moveSync_mix (new : SyncState) (s : State) :
    (s.moveSync new).mix = s.mix := by
  unfold State.moveSync; split <;> rfl

@[simp] theorem State.moveSync_status (new : SyncState) (s : State) :
    (s.moveSync new).status = s.status := by
  unfold State.moveSync; split <;> rfl

@[simp] theorem State.moveSync_cycleStarts (new : SyncState) (s : State) :
    (s.moveSync new).cycleStarts = s.cycleStarts := by
  unfold State.moveSync; split <;> rfl

@[simp] theorem State.moveSync_pending (new : SyncState) (s : State) :
    (s.moveSync new).pending = s.pending := by
  unfold State.moveSync; split <;> rfl

@[simp] theorem State.moveSync_beat_timer (new : SyncState) (s : State) :
    (s.moveSync new).beat.timer = s.beat.timer := by
  unfold State.moveSync; split <;> rfl

@[simp] theorem State.moveSync_beat_cycle (new : SyncState) (s : State) :
    (s.moveSync new).beat.cycle = s.beat.cycle := by
  unfold State.moveSync; split <;> rfl

@[simp] theorem State.moveSync_beat_holder (new : SyncState) (s : State) :
    (s.moveSync new).beat.holder = s.beat.holder := by
  unfold State.moveSync; split <;> rfl

@[simp] theorem State.moveSync_beat_rank (new : SyncState) (s : State) :
    (s.moveSync new).beat.rank = s.beat.rank := by
  unfold State.moveSync; split <;> rfl

@[simp] theorem State.moveSync_beat_holderCond (new : SyncState) (s : State) :
    (s.moveSync new).beat.holderCond = s.beat.holderCond := by
  unfold State.moveSync; split <;> rfl

@[simp] theorem State.moveSync_beat_barred (new : SyncState) (s : State) :
    (s.moveSync new).beat.barred = s.beat.barred := by
  unfold State.moveSync; split <;> rfl

@[simp] theorem State.moveSync_beat_failures (new : SyncState) (s : State) :
    (s.moveSync new).beat.failures = s.beat.failures := by
  unfold State.moveSync; split <;> rfl

@[simp] theorem State.moveSync_beat_coldStart (new : SyncState) (s : State) :
    (s.moveSync new).beat.coldStart = s.beat.coldStart := by
  unfold State.moveSync; split <;> rfl

@[simp] theorem State.moveSync_beat_obsCount (new : SyncState) (s : State) :
    (s.moveSync new).beat.obsCount = s.beat.obsCount := by
  unfold State.moveSync; split <;> rfl

@[simp] theorem State.moveSync_beat_entCount (new : SyncState) (s : State) :
    (s.moveSync new).beat.entCount = s.beat.entCount := by
  unfold State.moveSync; split <;> rfl

@[simp] theorem State.moveSync_beat_firstBeat (new : SyncState) (s : State) :
    (s.moveSync new).beat.firstBeat = s.beat.firstBeat := by
  unfold State.moveSync; split <;> rfl

@[simp] theorem State.moveSync_beat_waitOpen (new : SyncState) (s : State) :
    (s.moveSync new).beat.waitOpen = s.beat.waitOpen := by
  unfold State.moveSync; split <;> rfl

@[simp] theorem State.moveSync_beat_request (new : SyncState) (s : State) :
    (s.moveSync new).beat.request = s.beat.request := by
  unfold State.moveSync; split <;> rfl

@[simp] theorem State.moveSync_beat_takerAt (new : SyncState) (s : State) :
    (s.moveSync new).beat.takerAt = s.beat.takerAt := by
  unfold State.moveSync; split <;> rfl

@[simp] theorem State.moveSync_beat_sync (new : SyncState) (s : State) :
    (s.moveSync new).beat.sync = new := by
  rcases s.moveSync_cases new with ⟨h, he⟩ | ⟨h, he⟩ <;> rw [he]
  · exact h.symm
  · rfl

@[simp] theorem State.moveSync_census_entries (new : SyncState) (s : State) :
    (s.moveSync new).census.entries = s.census.entries := by
  unfold State.moveSync; split <;> rfl

@[simp] theorem State.moveSync_census_readback (new : SyncState) (s : State) :
    (s.moveSync new).census.readback = s.census.readback := by
  unfold State.moveSync; split <;> rfl

@[simp] theorem State.moveSync_census_ownCollisions (new : SyncState) (s : State) :
    (s.moveSync new).census.ownCollisions = s.census.ownCollisions := by
  unfold State.moveSync; split <;> rfl

@[simp] theorem State.moveSync_census_conflictWait (new : SyncState) (s : State) :
    (s.moveSync new).census.conflictWait = s.census.conflictWait := by
  unfold State.moveSync; split <;> rfl

@[simp] theorem State.moveSync_census_reportTx (new : SyncState) (s : State) :
    (s.moveSync new).census.reportTx = s.census.reportTx := by
  unfold State.moveSync; split <;> rfl

@[simp] theorem State.moveSync_census_peers (new : SyncState) (s : State) :
    (s.moveSync new).census.peers = if new = s.beat.sync then s.census.peers else put s.census.peers s.own (ownEntry new) := by
  unfold State.moveSync; split <;> rfl

@[simp] theorem State.moveSync_keys (new : SyncState) (s : State) :
    (s.moveSync new).keys = if new = s.beat.sync then s.keys else s.keys.onSync s.beat.sync new := by
  unfold State.moveSync; split <;> rfl

@[simp] theorem KeyUnit.onSync_straps (a b : SyncState) (k : KeyUnit) :
    (k.onSync a b).straps = k.straps := by
  unfold KeyUnit.onSync; split <;> (try split) <;> rfl

@[simp] theorem KeyUnit.blinkTick_straps (a b : SyncState) (k : KeyUnit) :
    (k.blinkTick a b).straps = k.straps := by
  unfold KeyUnit.blinkTick; split <;> (try split) <;> rfl

@[simp] theorem KeyUnit.onSync_fingerprint (a b : SyncState) (k : KeyUnit) :
    (k.onSync a b).fingerprint = k.fingerprint := by
  unfold KeyUnit.onSync; split <;> (try split) <;> rfl

@[simp] theorem KeyUnit.blinkTick_fingerprint (a b : SyncState) (k : KeyUnit) :
    (k.blinkTick a b).fingerprint = k.fingerprint := by
  unfold KeyUnit.blinkTick; split <;> (try split) <;> rfl

@[simp] theorem KeyUnit.onSync_keyA (a b : SyncState) (k : KeyUnit) :
    (k.onSync a b).keyA = k.keyA := by
  unfold KeyUnit.onSync; split <;> (try split) <;> rfl

@[simp] theorem KeyUnit.blinkTick_keyA (a b : SyncState) (k : KeyUnit) :
    (k.blinkTick a b).keyA = k.keyA := by
  unfold KeyUnit.blinkTick; split <;> (try split) <;> rfl

@[simp] theorem KeyUnit.onSync_keyB (a b : SyncState) (k : KeyUnit) :
    (k.onSync a b).keyB = k.keyB := by
  unfold KeyUnit.onSync; split <;> (try split) <;> rfl

@[simp] theorem KeyUnit.blinkTick_keyB (a b : SyncState) (k : KeyUnit) :
    (k.blinkTick a b).keyB = k.keyB := by
  unfold KeyUnit.blinkTick; split <;> (try split) <;> rfl

@[simp] theorem KeyUnit.onSync_muteLatch (a b : SyncState) (k : KeyUnit) :
    (k.onSync a b).muteLatch = k.muteLatch := by
  unfold KeyUnit.onSync; split <;> (try split) <;> rfl

@[simp] theorem KeyUnit.blinkTick_muteLatch (a b : SyncState) (k : KeyUnit) :
    (k.blinkTick a b).muteLatch = k.muteLatch := by
  unfold KeyUnit.blinkTick; split <;> (try split) <;> rfl

@[simp] theorem KeyUnit.sampleKeys_straps (p : KeyPins) (k : KeyUnit) :
    (k.sampleKeys p).straps = k.straps := by
  rfl

@[simp] theorem KeyUnit.sampleKeys_fingerprint (p : KeyPins) (k : KeyUnit) :
    (k.sampleKeys p).fingerprint = k.fingerprint := by
  rfl

@[simp] theorem KeyUnit.sampleKeys_blinkCount (p : KeyPins) (k : KeyUnit) :
    (k.sampleKeys p).blinkCount = k.blinkCount := by
  rfl

@[simp] theorem KeyUnit.sampleKeys_linkPhase (p : KeyPins) (k : KeyUnit) :
    (k.sampleKeys p).linkPhase = k.linkPhase := by
  rfl

@[simp] theorem KeyUnit.sampleKeys_keyA (p : KeyPins) (k : KeyUnit) :
    (k.sampleKeys p).keyA = k.keyA.sample (keyAPressed p) := by
  rfl

@[simp] theorem KeyUnit.sampleKeys_keyB (p : KeyPins) (k : KeyUnit) :
    (k.sampleKeys p).keyB = k.keyB.sample (keyBPressed p) := by
  rfl

@[simp] theorem State.setSync_own (new : SyncState) (s : State) :
    (s.setSync new).own = s.own := by
  simp [State.own]

@[simp] theorem State.setSync_role (new : SyncState) (s : State) :
    (s.setSync new).role = s.role := by
  simp [State.role]

@[simp] theorem State.setSync_laneCount (new : SyncState) (s : State) :
    (s.setSync new).laneCount = s.laneCount := by
  simp [State.laneCount]

@[simp] theorem State.moveSync_own (new : SyncState) (s : State) :
    (s.moveSync new).own = s.own := by
  unfold State.moveSync; split
  · rfl
  · exact State.setSync_own new s

@[simp] theorem State.moveSync_role (new : SyncState) (s : State) :
    (s.moveSync new).role = s.role := by
  unfold State.moveSync; split
  · rfl
  · exact State.setSync_role new s

@[simp] theorem State.moveSync_laneCount (new : SyncState) (s : State) :
    (s.moveSync new).laneCount = s.laneCount := by
  unfold State.moveSync; split
  · rfl
  · exact State.setSync_laneCount new s

/-! ## What the blocks do at a cycle start (R48) -/

@[simp] theorem State.leaveCycle_inReset (cs : CycleStart) (s : State) :
    (s.leaveCycle cs).inReset = s.inReset := by
  unfold State.leaveCycle; split
  · simp
  · rfl

@[simp] theorem State.leaveCycle_capture (cs : CycleStart) (s : State) :
    (s.leaveCycle cs).capture = s.capture := by
  unfold State.leaveCycle; split
  · simp
  · rfl

@[simp] theorem State.leaveCycle_arbiter (cs : CycleStart) (s : State) :
    (s.leaveCycle cs).arbiter = s.arbiter := by
  unfold State.leaveCycle; split
  · exact s.realign_arbiter
  · rfl

@[simp] theorem State.leaveCycle_line_beatQuiet (cs : CycleStart) (s : State) :
    (s.leaveCycle cs).line.beatQuiet = s.line.beatQuiet := by
  unfold State.leaveCycle; split
  · exact s.realign_line_beatQuiet
  · rfl

@[simp] theorem State.leaveCycle_detector (cs : CycleStart) (s : State) :
    (s.leaveCycle cs).detector = s.detector := by
  unfold State.leaveCycle; split
  · simp
  · rfl

@[simp] theorem State.leaveCycle_beat (cs : CycleStart) (s : State) :
    (s.leaveCycle cs).beat = s.beat := by
  unfold State.leaveCycle; split
  · simp
  · rfl

@[simp] theorem State.leaveCycle_lanes (cs : CycleStart) (s : State) :
    (s.leaveCycle cs).lanes = s.lanes := by
  unfold State.leaveCycle; split
  · simp
  · rfl

@[simp] theorem State.leaveCycle_keys (cs : CycleStart) (s : State) :
    (s.leaveCycle cs).keys = s.keys := by
  unfold State.leaveCycle; split
  · simp
  · rfl

@[simp] theorem State.leaveCycle_status (cs : CycleStart) (s : State) :
    (s.leaveCycle cs).status = s.status := by
  unfold State.leaveCycle; split
  · simp
  · rfl

@[simp] theorem State.leaveCycle_cycleStarts (cs : CycleStart) (s : State) :
    (s.leaveCycle cs).cycleStarts = s.cycleStarts := by
  unfold State.leaveCycle; split
  · simp
  · rfl

@[simp] theorem State.leaveCycle_pending (cs : CycleStart) (s : State) :
    (s.leaveCycle cs).pending = s.pending := by
  unfold State.leaveCycle; split
  · simp
  · rfl

@[simp] theorem State.leaveCycle_own (cs : CycleStart) (s : State) :
    (s.leaveCycle cs).own = s.own := by
  unfold State.leaveCycle; split
  · simp
  · rfl

@[simp] theorem State.leaveCycle_role (cs : CycleStart) (s : State) :
    (s.leaveCycle cs).role = s.role := by
  unfold State.leaveCycle; split
  · simp
  · rfl

@[simp] theorem State.leaveCycle_laneCount (cs : CycleStart) (s : State) :
    (s.leaveCycle cs).laneCount = s.laneCount := by
  unfold State.leaveCycle; split
  · simp
  · rfl

@[simp] theorem State.leaveCycle_line_candidate (cs : CycleStart) (s : State) :
    (s.leaveCycle cs).line.candidate = s.line.candidate := by
  unfold State.leaveCycle; split
  · simp
  · rfl

@[simp] theorem State.leaveCycle_census_peers (cs : CycleStart) (s : State) :
    (s.leaveCycle cs).census.peers = s.census.peers := by
  unfold State.leaveCycle; split
  · simp
  · rfl

@[simp] theorem State.leaveCycle_census_ownCollisions (cs : CycleStart) (s : State) :
    (s.leaveCycle cs).census.ownCollisions = s.census.ownCollisions := by
  unfold State.leaveCycle; split
  · simp
  · rfl

@[simp] theorem State.leaveCycle_census_conflictWait (cs : CycleStart) (s : State) :
    (s.leaveCycle cs).census.conflictWait = s.census.conflictWait := by
  unfold State.leaveCycle; split
  · simp
  · rfl

@[simp] theorem State.leaveCycle_audio_unlisted (cs : CycleStart) (s : State) :
    (s.leaveCycle cs).audio.unlisted = s.audio.unlisted := by
  unfold State.leaveCycle; split
  · simp
  · rfl

@[simp] theorem State.beginCycle_inReset (cs : CycleStart) (j : Bool) (s : State) :
    (s.beginCycle cs j).1.inReset = s.inReset := by
  simp [State.beginCycle]

@[simp] theorem State.beginCycle_status (cs : CycleStart) (j : Bool) (s : State) :
    (s.beginCycle cs j).1.status = s.status := by
  simp [State.beginCycle]

@[simp] theorem State.beginCycle_pending (cs : CycleStart) (j : Bool) (s : State) :
    (s.beginCycle cs j).1.pending = s.pending := by
  simp [State.beginCycle]

@[simp] theorem State.beginCycle_cycleStarts (cs : CycleStart) (j : Bool) (s : State) :
    (s.beginCycle cs j).1.cycleStarts = s.cycleStarts + 1 := by
  simp [State.beginCycle]

@[simp] theorem State.beginCycle_capture (cs : CycleStart) (j : Bool) (s : State) :
    (s.beginCycle cs j).1.capture = (s.capture.complete s.keys.straps cs.displacement).1 := by
  simp [State.beginCycle]

@[simp] theorem State.beginCycle_records (cs : CycleStart) (j : Bool) (s : State) :
    (s.beginCycle cs j).2 = captureRecords s.capture.mic (s.capture.complete s.keys.straps cs.displacement).2 := by
  simp [State.beginCycle]

@[simp] theorem State.beginCycle_detector (cs : CycleStart) (j : Bool) (s : State) :
    (s.beginCycle cs j).1.detector = s.detector.offer s.role (s.capture.complete s.keys.straps cs.displacement).1
      (s.capture.complete s.keys.straps cs.displacement).2 := by
  simp [State.beginCycle]
  rfl

@[simp] theorem State.beginCycle_arbiter (cs : CycleStart) (j : Bool) (s : State) :
    (s.beginCycle cs j).1.arbiter = s.arbiterAtCycleStart (s.capture.complete s.keys.straps cs.displacement).1 := by
  simp [State.beginCycle, State.arbiterAtCycleStart]
  rfl

@[simp] theorem State.beginCycle_line (cs : CycleStart) (j : Bool) (s : State) :
    (s.beginCycle cs j).1.line = (s.leaveCycle cs).line.openSpans cs.sync s.laneCount
      (if cs.displacement.isSome then cs.age else 0) := by
  simp [State.beginCycle]
  rfl

@[simp] theorem State.beginCycle_beat_timer (cs : CycleStart) (j : Bool) (s : State) :
    (s.beginCycle cs j).1.beat.timer = (s.beat.cycleStart cs).timer := by
  simp [State.beginCycle]

@[simp] theorem State.beginCycle_beat_cycle (cs : CycleStart) (j : Bool) (s : State) :
    (s.beginCycle cs j).1.beat.cycle = (s.beat.cycleStart cs).cycle := by
  simp [State.beginCycle]

@[simp] theorem State.beginCycle_beat_holder (cs : CycleStart) (j : Bool) (s : State) :
    (s.beginCycle cs j).1.beat.holder = (s.beat.cycleStart cs).holder := by
  simp [State.beginCycle]

@[simp] theorem State.beginCycle_beat_rank (cs : CycleStart) (j : Bool) (s : State) :
    (s.beginCycle cs j).1.beat.rank = (s.beat.cycleStart cs).rank := by
  simp [State.beginCycle]

@[simp] theorem State.beginCycle_beat_holderCond (cs : CycleStart) (j : Bool) (s : State) :
    (s.beginCycle cs j).1.beat.holderCond = (s.beat.cycleStart cs).holderCond := by
  simp [State.beginCycle]

@[simp] theorem State.beginCycle_beat_barred (cs : CycleStart) (j : Bool) (s : State) :
    (s.beginCycle cs j).1.beat.barred = (s.beat.cycleStart cs).barred := by
  simp [State.beginCycle]

@[simp] theorem State.beginCycle_beat_failures (cs : CycleStart) (j : Bool) (s : State) :
    (s.beginCycle cs j).1.beat.failures = (s.beat.cycleStart cs).failures := by
  simp [State.beginCycle]

@[simp] theorem State.beginCycle_beat_coldStart (cs : CycleStart) (j : Bool) (s : State) :
    (s.beginCycle cs j).1.beat.coldStart = (s.beat.cycleStart cs).coldStart := by
  simp [State.beginCycle]

@[simp] theorem State.beginCycle_beat_obsCount (cs : CycleStart) (j : Bool) (s : State) :
    (s.beginCycle cs j).1.beat.obsCount = (s.beat.cycleStart cs).obsCount := by
  simp [State.beginCycle]

@[simp] theorem State.beginCycle_beat_entCount (cs : CycleStart) (j : Bool) (s : State) :
    (s.beginCycle cs j).1.beat.entCount = (s.beat.cycleStart cs).entCount := by
  simp [State.beginCycle]

@[simp] theorem State.beginCycle_beat_firstBeat (cs : CycleStart) (j : Bool) (s : State) :
    (s.beginCycle cs j).1.beat.firstBeat = (s.beat.cycleStart cs).firstBeat := by
  simp [State.beginCycle]

@[simp] theorem State.beginCycle_beat_waitOpen (cs : CycleStart) (j : Bool) (s : State) :
    (s.beginCycle cs j).1.beat.waitOpen = (s.beat.cycleStart cs).waitOpen := by
  simp [State.beginCycle]

@[simp] theorem State.beginCycle_beat_request (cs : CycleStart) (j : Bool) (s : State) :
    (s.beginCycle cs j).1.beat.request = (s.beat.cycleStart cs).request := by
  simp [State.beginCycle]

@[simp] theorem State.beginCycle_beat_takerAt (cs : CycleStart) (j : Bool) (s : State) :
    (s.beginCycle cs j).1.beat.takerAt = (s.beat.cycleStart cs).takerAt := by
  simp [State.beginCycle]

@[simp] theorem State.beginCycle_beat_sync (cs : CycleStart) (j : Bool) (s : State) :
    (s.beginCycle cs j).1.beat.sync = cs.sync := by
  simp [State.beginCycle]

@[simp] theorem State.beginCycle_beat_candidate (cs : CycleStart) (j : Bool) (s : State) :
    (s.beginCycle cs j).1.beat.candidate = (decide (cs.sync = .locked) && decide (s.beat.barred - 1 = 0)) := by
  simp [State.beginCycle]

@[simp] theorem State.beginCycle_census_peers (cs : CycleStart) (j : Bool) (s : State) :
    (s.beginCycle cs j).1.census.peers = if cs.sync = s.beat.sync then s.census.peers else put s.census.peers s.own (ownEntry cs.sync) := by
  simp [State.beginCycle]
  rfl

@[simp] theorem State.beginCycle_census_entries (cs : CycleStart) (j : Bool) (s : State) :
    (s.beginCycle cs j).1.census.entries = Vector.replicate 16 none := by
  simp [State.beginCycle]

@[simp] theorem State.beginCycle_census_readback (cs : CycleStart) (j : Bool) (s : State) :
    (s.beginCycle cs j).1.census.readback = none := by
  simp [State.beginCycle]

@[simp] theorem State.beginCycle_census_ownCollisions (cs : CycleStart) (j : Bool) (s : State) :
    (s.beginCycle cs j).1.census.ownCollisions = s.census.ownCollisions := by
  simp [State.beginCycle]

@[simp] theorem State.beginCycle_census_conflictWait (cs : CycleStart) (j : Bool) (s : State) :
    (s.beginCycle cs j).1.census.conflictWait = if cs.sync = .conflict then s.census.conflictWait - 1 else s.census.conflictWait := by
  simp [State.beginCycle]

@[simp] theorem State.beginCycle_census_reportTx (cs : CycleStart) (j : Bool) (s : State) :
    (s.beginCycle cs j).1.census.reportTx = (s.leaveCycle cs).census.reportTx := by
  simp [State.beginCycle]

@[simp] theorem State.beginCycle_lanes (cs : CycleStart) (j : Bool) (s : State) :
    (s.beginCycle cs j).1.lanes = s.lanes.cycleStart := by
  simp [State.beginCycle]

@[simp] theorem State.beginCycle_audio (cs : CycleStart) (j : Bool) (s : State) :
    (s.beginCycle cs j).1.audio = (s.leaveCycle cs).audio.cycleStart s.lanes.slotCopy s.lanes.table := by
  simp [State.beginCycle]

@[simp] theorem State.beginCycle_mix (cs : CycleStart) (j : Bool) (s : State) :
    (s.beginCycle cs j).1.mix = (s.leaveCycle cs).mix.cycleStart (s.setCloses cs) := by
  simp [State.beginCycle]

@[simp] theorem State.beginCycle_keys (cs : CycleStart) (j : Bool) (s : State) :
    (s.beginCycle cs j).1.keys = (KeyUnit.blinkTick s.beat.sync (if j then .listen else cs.sync) (if cs.sync = s.beat.sync then s.keys
      else s.keys.onSync s.beat.sync cs.sync)).sampleKeys cs.keys := by
  simp [State.beginCycle]
  rfl

@[simp] theorem State.beginCycle_own (cs : CycleStart) (j : Bool) (s : State) :
    (s.beginCycle cs j).1.own = s.own := by
  simp only [State.own, State.beginCycle_keys]; by_cases h : cs.sync = s.beat.sync <;> simp [h]

@[simp] theorem State.beginCycle_role (cs : CycleStart) (j : Bool) (s : State) :
    (s.beginCycle cs j).1.role = s.role := by
  simp only [State.role, State.beginCycle_keys]; by_cases h : cs.sync = s.beat.sync <;> simp [h]

@[simp] theorem State.beginCycle_laneCount (cs : CycleStart) (j : Bool) (s : State) :
    (s.beginCycle cs j).1.laneCount = s.laneCount := by
  simp only [State.laneCount, State.beginCycle_keys]; by_cases h : cs.sync = s.beat.sync <;> simp [h]

/-! ## Rejoin (R64) -/

@[simp] theorem State.rejoin_inReset (r : SyncReason) (s : State) :
    (s.rejoin r).1.inReset = s.inReset := by
  simp [State.rejoin]

@[simp] theorem State.rejoin_capture (r : SyncReason) (s : State) :
    (s.rejoin r).1.capture = s.capture := by
  simp [State.rejoin]

@[simp] theorem State.rejoin_detector (r : SyncReason) (s : State) :
    (s.rejoin r).1.detector = s.detector := by
  simp [State.rejoin]

@[simp] theorem State.rejoin_status (r : SyncReason) (s : State) :
    (s.rejoin r).1.status = s.status := by
  simp [State.rejoin]

@[simp] theorem State.rejoin_cycleStarts (r : SyncReason) (s : State) :
    (s.rejoin r).1.cycleStarts = s.cycleStarts := by
  simp [State.rejoin]

@[simp] theorem State.rejoin_pending (r : SyncReason) (s : State) :
    (s.rejoin r).1.pending = s.pending := by
  simp [State.rejoin]

/-- A transmission that has stopped already stops where it stands. -/
@[simp] theorem LineTx.stop_stop (x : LineTx) : x.stop.stop = x.stop := by
  simp [LineTx.stop]

theorem LineTx.stop_ite (x : LineTx) : (if x.kind = .lane then x.stop else x).stop = x.stop := by
  split <;> simp

theorem State.rejoin_arbiter (r : SyncReason) (s : State) :
    (s.rejoin r).1.arbiter = s.arbiter.endTransmitter := by
  obtain h | h := s.closeLanes.cutOwnLane_arbiter .lost
  · simp [State.rejoin, h]
  · simp [State.rejoin, h, Arbiter.endTransmitter]

@[simp] theorem State.rejoin_line (r : SyncReason) (s : State) :
    (s.rejoin r).1.line = s.line.rejoin := by
  obtain h | h := s.closeLanes.cutOwnLane_line_tx .lost <;>
    simp [State.rejoin, Line.rejoin, h, Function.comp_def, LineTx.stop_ite]

@[simp] theorem State.rejoin_beat_timer (r : SyncReason) (s : State) :
    (s.rejoin r).1.beat.timer = s.beat.timer := by
  simp [State.rejoin]

@[simp] theorem State.rejoin_beat_cycle (r : SyncReason) (s : State) :
    (s.rejoin r).1.beat.cycle = s.beat.cycle := by
  simp [State.rejoin]

@[simp] theorem State.rejoin_beat_sync (r : SyncReason) (s : State) :
    (s.rejoin r).1.beat.sync = .listen := by
  simp [State.rejoin]

@[simp] theorem State.rejoin_beat_holder (r : SyncReason) (s : State) :
    (s.rejoin r).1.beat.holder = none := by
  simp [State.rejoin]

@[simp] theorem State.rejoin_beat_rank (r : SyncReason) (s : State) :
    (s.rejoin r).1.beat.rank = none := by
  simp [State.rejoin]

@[simp] theorem State.rejoin_beat_candidate (r : SyncReason) (s : State) :
    (s.rejoin r).1.beat.candidate = false := by
  simp [State.rejoin]

@[simp] theorem State.rejoin_beat_holderCond (r : SyncReason) (s : State) :
    (s.rejoin r).1.beat.holderCond = false := by
  simp [State.rejoin]

@[simp] theorem State.rejoin_beat_barred (r : SyncReason) (s : State) :
    (s.rejoin r).1.beat.barred = 0 := by
  simp [State.rejoin]

@[simp] theorem State.rejoin_beat_failures (r : SyncReason) (s : State) :
    (s.rejoin r).1.beat.failures = 0 := by
  simp [State.rejoin]

@[simp] theorem State.rejoin_beat_obsCount (r : SyncReason) (s : State) :
    (s.rejoin r).1.beat.obsCount = 0 := by
  simp [State.rejoin]

@[simp] theorem State.rejoin_beat_entCount (r : SyncReason) (s : State) :
    (s.rejoin r).1.beat.entCount = 0 := by
  simp [State.rejoin]

@[simp] theorem State.rejoin_beat_firstBeat (r : SyncReason) (s : State) :
    (s.rejoin r).1.beat.firstBeat = false := by
  simp [State.rejoin]

@[simp] theorem State.rejoin_beat_waitOpen (r : SyncReason) (s : State) :
    (s.rejoin r).1.beat.waitOpen = false := by
  simp [State.rejoin]

@[simp] theorem State.rejoin_beat_request (r : SyncReason) (s : State) :
    (s.rejoin r).1.beat.request = .idle := by
  simp [State.rejoin]

@[simp] theorem State.rejoin_beat_takerAt (r : SyncReason) (s : State) :
    (s.rejoin r).1.beat.takerAt = none := by
  simp [State.rejoin]

@[simp] theorem State.rejoin_beat_coldStart (r : SyncReason) (s : State) :
    (s.rejoin r).1.beat.coldStart = some (coldStartDelay s.own.val) := by
  simp [State.rejoin]

@[simp] theorem State.rejoin_census (r : SyncReason) (s : State) :
    (s.rejoin r).1.census = Census.reset := by
  simp [State.rejoin]

@[simp] theorem State.rejoin_lanes (r : SyncReason) (s : State) :
    (s.rejoin r).1.lanes = LaneManager.reset := by
  simp [State.rejoin]

@[simp] theorem State.rejoin_audio (r : SyncReason) (s : State) :
    (s.rejoin r).1.audio = { LaneAudio.reset with unlisted := s.audio.unlisted } := by
  simp [State.rejoin, LaneAudio.rejoin]

@[simp] theorem State.rejoin_mix (r : SyncReason) (s : State) :
    (s.rejoin r).1.mix = { s.mix.rejoin with sets := s.closeLanes.mix.sets } := by
  simp [State.rejoin, Mix.rejoin]

@[simp] theorem State.rejoin_keys (r : SyncReason) (s : State) :
    (s.rejoin r).1.keys = s.keys.onSync s.beat.sync .listen := by
  simp [State.rejoin]

@[simp] theorem State.rejoin_own (r : SyncReason) (s : State) :
    (s.rejoin r).1.own = s.own := by
  simp [State.own]

@[simp] theorem State.rejoin_role (r : SyncReason) (s : State) :
    (s.rejoin r).1.role = s.role := by
  simp [State.role]

@[simp] theorem State.rejoin_laneCount (r : SyncReason) (s : State) :
    (s.rejoin r).1.laneCount = s.laneCount := by
  simp [State.laneCount]

@[simp] theorem State.rejoin_records (r : SyncReason) (s : State) :
    (s.rejoin r).2 = [.sync .listen r none] ++
      (match s.lanes.table.laneOf s.own with | some l => [.gate l false .lost] | none => []) ++
      (if s.lanes.request = .none then [] else [.request .none 0]) := by
  simp [State.rejoin, State.endRequest, State.cutOwnLane]
  split <;> simp_all

/-! ## Summary (R167) -/

@[simp] theorem State.summaryTick_inReset (s : State) :
    s.summaryTick.1.inReset = s.inReset := by
  unfold State.summaryTick; split <;> rfl

@[simp] theorem State.summaryTick_capture (s : State) :
    s.summaryTick.1.capture = s.capture := by
  unfold State.summaryTick; split <;> rfl

@[simp] theorem State.summaryTick_arbiter (s : State) :
    s.summaryTick.1.arbiter = s.arbiter := by
  unfold State.summaryTick; split <;> rfl

@[simp] theorem State.summaryTick_detector (s : State) :
    s.summaryTick.1.detector = s.detector := by
  unfold State.summaryTick; split <;> rfl

@[simp] theorem State.summaryTick_line (s : State) :
    s.summaryTick.1.line = s.line := by
  unfold State.summaryTick; split <;> rfl

@[simp] theorem State.summaryTick_beat (s : State) :
    s.summaryTick.1.beat = s.beat := by
  unfold State.summaryTick; split <;> rfl

@[simp] theorem State.summaryTick_census (s : State) :
    s.summaryTick.1.census = s.census := by
  unfold State.summaryTick; split <;> rfl

@[simp] theorem State.summaryTick_lanes (s : State) :
    s.summaryTick.1.lanes = s.lanes := by
  unfold State.summaryTick; split <;> rfl

@[simp] theorem State.summaryTick_mix (s : State) :
    s.summaryTick.1.mix = s.mix := by
  unfold State.summaryTick; split <;> rfl

@[simp] theorem State.summaryTick_keys (s : State) :
    s.summaryTick.1.keys = s.keys := by
  unfold State.summaryTick; split <;> rfl

@[simp] theorem State.summaryTick_cycleStarts (s : State) :
    s.summaryTick.1.cycleStarts = s.cycleStarts := by
  unfold State.summaryTick; split <;> rfl

@[simp] theorem State.summaryTick_pending (s : State) :
    s.summaryTick.1.pending = s.pending := by
  unfold State.summaryTick; split <;> rfl

@[simp] theorem State.summaryTick_audio_tx (s : State) :
    s.summaryTick.1.audio.tx = s.audio.tx := by
  unfold State.summaryTick; split <;> rfl

@[simp] theorem State.summaryTick_audio_lanes (s : State) :
    s.summaryTick.1.audio.lanes = s.audio.lanes := by
  unfold State.summaryTick; split <;> rfl

@[simp] theorem State.summaryTick_status_queue (s : State) :
    s.summaryTick.1.status.queue = s.status.queue := by
  unfold State.summaryTick; split <;> rfl

@[simp] theorem State.summaryTick_status_tx (s : State) :
    s.summaryTick.1.status.tx = s.status.tx := by
  unfold State.summaryTick; split <;> rfl

@[simp] theorem State.summaryTick_status_overrun (s : State) :
    s.summaryTick.1.status.overrun = s.status.overrun := by
  unfold State.summaryTick; split <;> rfl

@[simp] theorem State.summaryTick_status_bitClock (s : State) :
    s.summaryTick.1.status.bitClock = s.status.bitClock := by
  unfold State.summaryTick; split <;> rfl

@[simp] theorem State.summaryTick_status_nextFree (s : State) :
    s.summaryTick.1.status.nextFree = s.status.nextFree := by
  unfold State.summaryTick; split <;> rfl

@[simp] theorem State.summaryTick_own (s : State) :
    s.summaryTick.1.own = s.own := by
  unfold State.summaryTick; split <;> rfl

@[simp] theorem State.summaryTick_role (s : State) :
    s.summaryTick.1.role = s.role := by
  unfold State.summaryTick; split <;> rfl

@[simp] theorem State.summaryTick_laneCount (s : State) :
    s.summaryTick.1.laneCount = s.laneCount := by
  unfold State.summaryTick; split <;> rfl

@[simp] theorem State.summaryTick_summaryCount (s : State) :
    s.summaryTick.1.status.summaryCount = if s.status.summaryCount + 1 < summaryCycles then s.status.summaryCount + 1 else 0 := by
  unfold State.summaryTick; split <;> rfl

@[simp] theorem State.summaryTick_unlisted (s : State) :
    s.summaryTick.1.audio.unlisted = if s.status.summaryCount + 1 < summaryCycles then s.audio.unlisted else false := by
  unfold State.summaryTick; split <;> rfl

/-! ## The whole event -/

/-- The state after a cycle start without its records: the blocks' part, the rejoin if there is one, the
summary. -/
def State.afterCycleStart (cs : CycleStart) (rejoins : Bool) (s : State) : State :=
  (if rejoins then ((s.beginCycle cs rejoins).1.rejoin .lost).1 else (s.beginCycle cs rejoins).1).summaryTick.1

/-- A cycle start is that state, with some records handed to the status port. -/
theorem State.cycleStart_spec (cs : CycleStart) (rejoins : Bool) (s : State) :
    ∃ bs, s.cycleStart cs rejoins = (s.afterCycleStart cs rejoins).raise bs := by
  unfold State.cycleStart State.afterCycleStart
  cases rejoins <;> exact ⟨_, rfl⟩

@[simp] theorem State.cycleStart_inReset (cs : CycleStart) (j : Bool) (s : State) :
    (s.cycleStart cs j).inReset = (s.afterCycleStart cs j).inReset := by
  obtain ⟨bs, h⟩ := s.cycleStart_spec cs j
  simp [h]

@[simp] theorem State.cycleStart_capture (cs : CycleStart) (j : Bool) (s : State) :
    (s.cycleStart cs j).capture = (s.afterCycleStart cs j).capture := by
  obtain ⟨bs, h⟩ := s.cycleStart_spec cs j
  simp [h]

@[simp] theorem State.cycleStart_arbiter (cs : CycleStart) (j : Bool) (s : State) :
    (s.cycleStart cs j).arbiter = (s.afterCycleStart cs j).arbiter := by
  obtain ⟨bs, h⟩ := s.cycleStart_spec cs j
  simp [h]

@[simp] theorem State.cycleStart_detector (cs : CycleStart) (j : Bool) (s : State) :
    (s.cycleStart cs j).detector = (s.afterCycleStart cs j).detector := by
  obtain ⟨bs, h⟩ := s.cycleStart_spec cs j
  simp [h]

@[simp] theorem State.cycleStart_line (cs : CycleStart) (j : Bool) (s : State) :
    (s.cycleStart cs j).line = (s.afterCycleStart cs j).line := by
  obtain ⟨bs, h⟩ := s.cycleStart_spec cs j
  simp [h]

@[simp] theorem State.cycleStart_beat (cs : CycleStart) (j : Bool) (s : State) :
    (s.cycleStart cs j).beat = (s.afterCycleStart cs j).beat := by
  obtain ⟨bs, h⟩ := s.cycleStart_spec cs j
  simp [h]

@[simp] theorem State.cycleStart_census (cs : CycleStart) (j : Bool) (s : State) :
    (s.cycleStart cs j).census = (s.afterCycleStart cs j).census := by
  obtain ⟨bs, h⟩ := s.cycleStart_spec cs j
  simp [h]

@[simp] theorem State.cycleStart_lanes (cs : CycleStart) (j : Bool) (s : State) :
    (s.cycleStart cs j).lanes = (s.afterCycleStart cs j).lanes := by
  obtain ⟨bs, h⟩ := s.cycleStart_spec cs j
  simp [h]

@[simp] theorem State.cycleStart_audio (cs : CycleStart) (j : Bool) (s : State) :
    (s.cycleStart cs j).audio = (s.afterCycleStart cs j).audio := by
  obtain ⟨bs, h⟩ := s.cycleStart_spec cs j
  simp [h]

@[simp] theorem State.cycleStart_mix (cs : CycleStart) (j : Bool) (s : State) :
    (s.cycleStart cs j).mix = (s.afterCycleStart cs j).mix := by
  obtain ⟨bs, h⟩ := s.cycleStart_spec cs j
  simp [h]

@[simp] theorem State.cycleStart_keys (cs : CycleStart) (j : Bool) (s : State) :
    (s.cycleStart cs j).keys = (s.afterCycleStart cs j).keys := by
  obtain ⟨bs, h⟩ := s.cycleStart_spec cs j
  simp [h]

@[simp] theorem State.cycleStart_cycleStarts (cs : CycleStart) (j : Bool) (s : State) :
    (s.cycleStart cs j).cycleStarts = (s.afterCycleStart cs j).cycleStarts := by
  obtain ⟨bs, h⟩ := s.cycleStart_spec cs j
  simp [h]

@[simp] theorem State.cycleStart_pending (cs : CycleStart) (j : Bool) (s : State) :
    (s.cycleStart cs j).pending = (s.afterCycleStart cs j).pending := by
  obtain ⟨bs, h⟩ := s.cycleStart_spec cs j
  simp [h]

@[simp] theorem State.cycleStart_own (cs : CycleStart) (j : Bool) (s : State) :
    (s.cycleStart cs j).own = (s.afterCycleStart cs j).own := by
  obtain ⟨bs, h⟩ := s.cycleStart_spec cs j
  simp [h]

@[simp] theorem State.cycleStart_role (cs : CycleStart) (j : Bool) (s : State) :
    (s.cycleStart cs j).role = (s.afterCycleStart cs j).role := by
  obtain ⟨bs, h⟩ := s.cycleStart_spec cs j
  simp [h]

@[simp] theorem State.cycleStart_laneCount (cs : CycleStart) (j : Bool) (s : State) :
    (s.cycleStart cs j).laneCount = (s.afterCycleStart cs j).laneCount := by
  obtain ⟨bs, h⟩ := s.cycleStart_spec cs j
  simp [h]

@[simp] theorem State.cycleStart_status_tx (cs : CycleStart) (j : Bool) (s : State) :
    (s.cycleStart cs j).status.tx = (s.afterCycleStart cs j).status.tx := by
  obtain ⟨bs, h⟩ := s.cycleStart_spec cs j
  simp [h]

@[simp] theorem State.cycleStart_status_summaryCount (cs : CycleStart) (j : Bool) (s : State) :
    (s.cycleStart cs j).status.summaryCount = (s.afterCycleStart cs j).status.summaryCount := by
  obtain ⟨bs, h⟩ := s.cycleStart_spec cs j
  simp [h]

@[simp] theorem State.cycleStart_status_bitClock (cs : CycleStart) (j : Bool) (s : State) :
    (s.cycleStart cs j).status.bitClock = (s.afterCycleStart cs j).status.bitClock := by
  obtain ⟨bs, h⟩ := s.cycleStart_spec cs j
  simp [h]

@[simp] theorem State.cycleStart_status_nextFree (cs : CycleStart) (j : Bool) (s : State) :
    (s.cycleStart cs j).status.nextFree = (s.afterCycleStart cs j).status.nextFree := by
  obtain ⟨bs, h⟩ := s.cycleStart_spec cs j
  simp [h]

end Sys2Proof.Machine
end

