-- ==== Sys2Proof/Laws/Begun.lean ====
section
/-! SUPPORT. What a cycle start and a rejoin leave, as the predicates of Safety.lean say it. -/

namespace Sys2Proof.Machine

theorem State.setCloses_eq (cs : CycleStart) (s : State) :
    s.setCloses cs = decide (s.SetCloses cs.displacement.isSome) := by
  have : (!s.line.lanesDelivered) = decide (∃ l : Lane, s.line.laneSpans[l] = true) := by
    rw [Bool.eq_iff_iff]
    simp [Line.lanesDelivered, Fin.exists_iff]
  simp [State.setCloses, this, State.SetCloses]

theorem State.leaveCycle_spec (cs : CycleStart) (s : State) :
    (s.leaveCycle cs).line.tx =
      (if cs.displacement.isSome then
        s.line.tx.map fun x => { x with bits := x.bits.take (x.sent + 1) } else s.line.tx) ∧
    (s.leaveCycle cs).line.stopped =
      (if cs.displacement.isSome then s.line.stopped ++ s.laneSent else s.line.stopped) ∧
    (s.leaveCycle cs).census.reportTx = (if cs.displacement.isSome then none else s.census.reportTx) ∧
    (s.leaveCycle cs).census.peers = s.census.peers ∧
    (s.leaveCycle cs).audio.tx =
      (if cs.displacement.isSome then none else s.audio.tx) ∧
    (∀ l : Lane, (s.leaveCycle cs).audio.lanes[l] = s.laneAtClose cs.displacement.isSome l) ∧
    (s.leaveCycle cs).mix = (if s.SetCloses cs.displacement.isSome then
      s.mix.takeSet (Vector.ofFn fun l =>
        (s.laneAtClose cs.displacement.isSome l).contribution.getD Contribution.zero)
      else s.mix) := by
  unfold State.leaveCycle State.laneAtClose
  by_cases h : cs.displacement.isSome = true
  · obtain ⟨au, m, e, hau, hm⟩ := s.closeLanes_spec
    have hd : s.line.lanesDelivered = true ↔ ¬ ∃ l : Lane, s.line.laneSpans[l] = true := by
      simp [Line.lanesDelivered, Fin.forall_iff]
    simp only [h, if_true, true_and, State.realign, e]
    refine ⟨rfl, rfl, hau, ?_⟩
    rw [hm]
    have hset : LaneAudio.contributions { s.audio with lanes := au } = Vector.ofFn fun l =>
        (if s.line.laneSpans[l] = true then
          s.audio.lanes[l].judge s.lanes.slotCopy[l] s.own none else s.audio.lanes[l]).contribution.getD
            Contribution.zero := by
      apply vector_ext_fin
      intro l
      rw [LaneAudio.contributions, ofFn_get, ofFn_get, hau l]
    rw [hset]
    by_cases hs : ∃ l : Lane, s.line.laneSpans[l] = true
    · rw [if_neg (fun h' => hd.mp h' hs), if_pos ⟨rfl, hs⟩]
    · rw [if_pos (hd.mpr hs), if_neg fun h' => hs h'.2]
  · simp [h]

/-- The keys at a cycle start (R153, R155, R156). -/
theorem KeyUnit.moved (old new : SyncState) (pins : KeyPins) (k : KeyUnit) :
    KeysMoved old new pins k
      ((KeyUnit.blinkTick old new (if new = old then k else k.onSync old new)).sampleKeys pins) where
  straps := by split <;> simp
  keyA := by split <;> simp [keyAPressed]
  keyB := by split <;> simp [keyBPressed]
  mute := by split <;> simp [KeyUnit.sampleKeys]
  blink := by
    rcases k with ⟨st, fp, ka, kb, ml, bc, lp⟩
    by_cases he : new = old
    · subst he
      cases hb : new.blinks
      · simp [KeyUnit.sampleKeys, KeyUnit.blinkTick, hb]
      · simp only [KeyUnit.sampleKeys, KeyUnit.blinkTick, hb, blinkCycles]
        by_cases hc : bc < 124
        · have hd : bc + 1 < 125 := by omega
          simp [hc, hd]
        · have hd : ¬ bc + 1 < 125 := by omega
          simp [hc, hd]
    · rw [if_neg he]
      cases hb : new.blinks <;> cases ho : old.blinks
      · simp [KeyUnit.sampleKeys, KeyUnit.blinkTick, KeyUnit.onSync, hb, ho, he]
      · simp [KeyUnit.sampleKeys, KeyUnit.blinkTick, KeyUnit.onSync, hb, ho, he]
      · simp [KeyUnit.sampleKeys, KeyUnit.blinkTick, KeyUnit.onSync, hb, ho]
      · simp only [KeyUnit.sampleKeys, KeyUnit.blinkTick, KeyUnit.onSync, hb, ho, blinkCycles]
        by_cases hc : bc < 124
        · have hd : bc + 1 < 125 := by omega
          simp [hc, hd]
        · have hd : ¬ bc + 1 < 125 := by omega
          simp [hc, hd]

/-- The status port at a summary tick (R167). -/
theorem State.summaryTick_status (s : State) : s.summaryTick.1.status = { s.status with
    summaryCount := if s.status.summaryCount < 249 then s.status.summaryCount + 1 else 0 } := by
  unfold State.summaryTick
  by_cases h : s.status.summaryCount < 249
  · rw [if_pos (by simp only [summaryCycles]; omega), if_pos h]
  · rw [if_neg (by simp only [summaryCycles]; omega), if_neg h]

/-- The SUMMARY record of a summary tick (R167). -/
theorem State.summaryTick_records (s : State) : s.summaryTick.2 =
    if s.status.summaryCount < 249 then [] else
      [.summary (Vector.ofFn fun l => s.lanes.table[l].owner)
        (Vector.ofFn fun a => decide (s.census.peers[a].presence = .present)) s.beat.holder
        s.audio.unlisted] := by
  unfold State.summaryTick
  by_cases h : s.status.summaryCount < 249
  · rw [if_pos (by simp only [summaryCycles]; omega), if_pos h]
  · rw [if_neg (by simp only [summaryCycles]; omega), if_neg h]
    rfl

/-- A cycle start without a rejoin. -/
theorem State.cycleStart_begun (cs : CycleStart) (s : State) : s.CycleBegun cs (s.cycleStart cs false) := by
  obtain ⟨htx, hst, hrep, hpeers, hatx, hau, hmix⟩ := s.leaveCycle_spec cs
  refine
    { beat := ?_, census := ?_, lanes := ?_, line := ?_, capture := ?_, detector := ?_, arbiter := ?_, laneTx := ?_,
      laneRx := ?_, unlisted := ?_, mix := ?_, keys := ?_, status := ?_, rest := ?_ }
  · simp only [State.cycleStart_beat, State.afterCycleStart, State.summaryTick_beat]
    have hr : s.beat.request.atCycleStart =
        if s.beat.request = .waiting .holder ∨ s.beat.request = .waiting .taker then .idle
        else s.beat.request := by
      rcases s.beat.request with _ | k | _ <;> try (cases k) <;> simp [BeatRequest.atCycleStart]
      all_goals simp [BeatRequest.atCycleStart]
    rw [← hr]
    have : ∀ b : Beat, b = ⟨b.sync, b.timer, b.cycle, b.holder, b.rank, b.candidate, b.holderCond,
      b.barred, b.failures, b.coldStart, b.obsCount, b.entCount, b.firstBeat, b.waitOpen, b.request,
      b.takerAt⟩ := fun b => rfl
    simp only [Bool.false_eq_true, if_false]
    rw [this (s.beginCycle cs false).1.beat]
    simp only [State.beginCycle_beat_timer, State.beginCycle_beat_cycle,
      State.beginCycle_beat_holder, State.beginCycle_beat_rank, State.beginCycle_beat_holderCond,
      State.beginCycle_beat_barred, State.beginCycle_beat_failures, State.beginCycle_beat_coldStart,
      State.beginCycle_beat_obsCount, State.beginCycle_beat_entCount, State.beginCycle_beat_firstBeat,
      State.beginCycle_beat_waitOpen, State.beginCycle_beat_request, State.beginCycle_beat_takerAt,
      State.beginCycle_beat_sync, State.beginCycle_beat_candidate, Beat.cycleStart]
    congr 1
    by_cases h1 : cs.sync = .locked <;> by_cases h2 : s.beat.barred ≤ 1 <;> simp [h1, h2]
    all_goals omega
  · simp only [State.cycleStart_census, State.afterCycleStart, State.summaryTick_census]
    have : ∀ b : Census, b = ⟨b.peers, b.entries, b.readback, b.ownCollisions, b.conflictWait,
      b.reportTx⟩ := fun b => rfl
    simp only [Bool.false_eq_true, if_false]
    rw [this (s.beginCycle cs false).1.census]
    simp only [State.beginCycle_census_peers,
      State.beginCycle_census_entries, State.beginCycle_census_readback,
      State.beginCycle_census_ownCollisions, State.beginCycle_census_conflictWait,
      State.beginCycle_census_reportTx, hrep, ownEntry, PeerEntry.absent]
  · simp [State.afterCycleStart, LaneManager.cycleStart]
  · simp only [State.cycleStart_line, State.afterCycleStart, State.summaryTick_line,
      Bool.false_eq_true, if_false, State.beginCycle_line, Line.openSpans, htx, hst,
      State.leaveCycle_line_candidate, State.leaveCycle_line_beatQuiet]
  · simp [State.afterCycleStart]
  · simp [State.afterCycleStart]
  · simp only [State.cycleStart_arbiter, State.cycleStart_capture, State.afterCycleStart,
      State.summaryTick_arbiter, State.summaryTick_capture, Bool.false_eq_true, if_false,
      State.beginCycle_arbiter, State.beginCycle_capture, State.arbiterAtCycleStart]
    refine ⟨fun h => ?_, fun h => ?_⟩
    · rw [if_pos h]; rfl
    · rw [if_neg h]
      by_cases hp : s.detector.processing.isSome = true
      · rw [if_pos hp, if_pos hp]; exact ⟨rfl, rfl⟩
      · rw [if_neg hp, if_neg hp]; exact ⟨rfl, rfl⟩
  · simp only [State.cycleStart_audio, State.afterCycleStart, State.summaryTick_audio_tx,
      Bool.false_eq_true, if_false, State.beginCycle_audio, LaneAudio.cycleStart, hatx]
  · intro l
    simp only [State.cycleStart_audio, State.afterCycleStart, State.summaryTick_audio_lanes,
      Bool.false_eq_true, if_false, State.beginCycle_audio, LaneAudio.cycleStart]
    rw [ofFn_get, hau l]
  · simp only [State.cycleStart_audio, State.afterCycleStart, State.summaryTick_unlisted,
      Bool.false_eq_true, if_false, State.beginCycle_audio, LaneAudio.cycleStart,
      State.leaveCycle_audio_unlisted, State.beginCycle_status, summaryCycles]
    by_cases h : s.status.summaryCount < 249
    · have h' : s.status.summaryCount + 1 < 250 := by omega
      simp [h, h']
    · have h' : ¬ s.status.summaryCount + 1 < 250 := by omega
      simp [h, h']
  · simp only [State.cycleStart_mix, State.afterCycleStart, State.summaryTick_mix,
      Bool.false_eq_true, if_false, State.beginCycle_mix, hmix, State.setCloses_eq]
    split <;> rfl
  · simp only [State.cycleStart_keys, State.afterCycleStart, State.summaryTick_keys,
      Bool.false_eq_true, if_false, State.beginCycle_keys]
    exact KeyUnit.moved _ _ _ _
  · refine ⟨_, rfl, Config.recordOrder s.cycleStarts, ?_⟩
    have ht : (s.cycleStart cs false).lanes = s.lanes.cycleStart := by
      simp [State.afterCycleStart]
    have hp : (s.cycleStart cs false).census.peers = (s.beginCycle cs false).1.census.peers := by
      simp [State.afterCycleStart]
    have hh : (s.cycleStart cs false).beat.holder = (s.beginCycle cs false).1.beat.holder := by
      simp [State.afterCycleStart]
    have hl : (s.beginCycle cs false).1.lanes = (s.cycleStart cs false).lanes := by
      simp [State.afterCycleStart]
    have hu : (s.beginCycle cs false).1.audio.unlisted = s.audio.unlisted := by
      simp [LaneAudio.cycleStart]
    rw [hp, hh, ← hl]
    simp only [State.cycleStart, Bool.false_eq_true, if_false, State.raise]
    have hc : (s.beginCycle cs false).1.summaryTick.1.beat.cycle = cs.cycle := by
      simp [Beat.cycleStart]
    rw [hc]
    have hst := s.beginCycle_status cs false
    have hb := State.summaryTick_status (s.beginCycle cs false).1
    have hs := State.summaryTick_records (s.beginCycle cs false).1
    rw [hst] at hb hs
    rw [hu] at hs
    rw [hb, hs, State.beginCycle_records]
    rfl
  · simp [State.afterCycleStart]

/-- A rejoin (R64). -/
theorem State.rejoin_offTheLine (r : SyncReason) (s : State) : (s.rejoin r).1.OffTheLine where
  sync := by simp
  holder := by simp
  flags := by simp
  counters := by simp
  coldStart := by simp [coldStartDelay]
  requests := by simp [State.rejoin, Beat.rejoin]
  peers := by simp [Census.reset, PeerEntry.absent]
  census := by simp [Census.reset]
  tables := by simp [LaneManager.reset, LaneTable.allFree]
  lanes := by
    simp only [State.rejoin_lanes, LaneManager.reset, LaneTable.allFree_digest, and_self]
  audio := by simp [LaneAudio.reset, LaneRx.reset]
  mix := by simp [Mix.rejoin]
  driver := by
    refine ⟨by simp, fun x hx => ?_⟩
    simp only [State.rejoin_line, Line.rejoin_tx, Option.map_eq_some_iff] at hx
    obtain ⟨y, -, rfl⟩ := hx
    simp
  bank := by simp [State.rejoin_arbiter]
  spans := by simp [Line.rejoin, Line.reset]

end Sys2Proof.Machine
end

