-- ==== Sys2Proof/Laws/Election.lean ====
section
/-! SUPPORT. The stages of the census-close operation: what each can do to the owners of a lane table, and
that each keeps a table legal. -/

namespace Sys2Proof.Machine

/-! ## Owners -/

/-- A table whose owners all stood in a legal table is legal. -/
theorem LaneTable.Legal.of_owners {m : Nat} {t u : LaneTable} (h : t.Legal m)
    (hu : ∀ (l : Lane) (a : Addr), u[l].owner = some a → t[l].owner = some a) : u.Legal m where
  unused l hl := by
    rw [← LaneEntry.owner_eq_none, Option.eq_none_iff_forall_ne_some]
    intro a ha
    have := hu l a ha
    rw [h.unused l hl] at this
    simp at this
  single k l a hk hl := h.single k l a (hu k a hk) (hu l a hl)

/-- A legal table that gives lane `l` below `m` to an address without a lane is legal. -/
theorem LaneTable.Legal.give {m : Nat} {t : LaneTable} (h : t.Legal m) {l : Lane} (hl : l.val < m)
    {e : LaneEntry} {a : Addr} (he : e.owner = some a) (ha : ∀ k : Lane, t[k].owner ≠ some a) :
    LaneTable.Legal m (Sys2Proof.put t l e) where
  unused k hk := by
    rw [put_get_ne _ _ (by rintro rfl; omega)]
    exact h.unused k hk
  single j k b hj hk := by
    rw [put_get] at hj hk
    split at hj <;> split at hk
    · simp_all
    · rw [he] at hj
      cases hj
      exact absurd hk (ha k)
    · rw [he] at hk
      cases hk
      exact absurd hj (ha j)
    · exact h.single j k b hj hk

/-- A lane with an owner lies below `m` in a legal table. -/
theorem LaneTable.Legal.lt_of_owner {m : Nat} {t : LaneTable} (h : t.Legal m) {l : Lane} {a : Addr}
    (ha : t[l].owner = some a) : l.val < m := by
  by_contra hlt
  rw [h.unused l (by omega)] at ha
  simp at ha

/-! ## Stage 1 -/

/-- An announcement is a report of its address that holds the lane and is not closing, from an address
whose presence announces (R110). -/
theorem announcementOf_some {sync : SyncState} {v : Option Addr} {d : Delivery} {a : Addr}
    {x : Announcement} (h : announcementOf sync v d a = some x) :
    x.addr = a ∧ v ≠ some a ∧ announces sync d.peers[a].presence = true ∧
      ∃ r, d.entries[a] = some r ∧ r.held = some x.lane ∧ r.closing = false ∧ x.age = ageOf r.age ∧
        x.role = r.role ∧ x.score = r.score.toNat ∧ x.idle = r.idle := by
  unfold announcementOf at h
  split at h
  · simp at h
  · next r hr =>
    split at h
    · simp at h
    · next l hl =>
      split at h
      · simp at h
      · next hc =>
        simp only [Bool.or_eq_true, Bool.not_eq_eq_eq_not, not_or] at hc
        cases h
        refine ⟨rfl, by simpa using hc.2, by simpa using hc.1.2, r, hr, hl, by simpa using hc.1.1,
          rfl, rfl, rfl, rfl⟩

/-- The announcements of a census are those of its addresses. -/
theorem mem_announcements {sync : SyncState} {v : Option Addr} {d : Delivery} {x : Announcement} :
    x ∈ announcements sync v d ↔ ∃ a, announcementOf sync v d a = some x := by
  simp [announcements]

/-- The better of a best announcement and a next one is one of the two (R111). -/
theorem betterAnnouncement_mem {b : Option Announcement} {x w : Announcement}
    (h : betterAnnouncement b x = some w) : w = x ∨ b = some w := by
  unfold betterAnnouncement at h
  split at h
  · simp_all
  · split at h
    · left; simpa using h.symm
    · right; simpa using h

theorem foldl_betterAnnouncement_mem (xs : List Announcement) (b : Option Announcement)
    {w : Announcement} (h : xs.foldl betterAnnouncement b = some w) : w ∈ xs ∨ b = some w := by
  induction xs generalizing b with
  | nil => exact .inr h
  | cons x xs ih =>
    rcases ih _ h with h | h
    · exact .inl (List.mem_cons_of_mem _ h)
    · rcases betterAnnouncement_mem h with rfl | h
      · exact .inl List.mem_cons_self
      · exact .inr h

/-- A winner is an announcement of its lane, which lies below `m` (R111). -/
theorem winner_some {m : Nat} {xs : List Announcement} {l : Lane} {w : Announcement}
    (h : winner m xs l = some w) : l.val < m ∧ w ∈ xs ∧ w.lane = l := by
  unfold winner at h
  split at h
  · next hl =>
    rcases foldl_betterAnnouncement_mem _ _ h with h | h
    · have := List.mem_filter.mp h
      exact ⟨hl, this.1, by simpa using this.2⟩
    · simp at h
  · simp at h

theorem adoption_some {win : Lane → Option Announcement} {before : LaneTable} {l : Lane}
    {w : Announcement} (h : adoption win before l = some w) :
    win l = some w ∧ before[l].owner ≠ some w.addr := by
  unfold adoption at h
  split at h
  · split at h
    · simp at h
    · cases h
      exact ⟨by assumption, by assumption⟩
  · simp at h

/-- The owners that an adoption leaves: the winner in the adopted lane, and other addresses where they
were (R113). -/
theorem adopt_owner {t : LaneTable} {l k : Lane} {w : Announcement} {a : Addr}
    (h : (adopt t l w)[k].owner = some a) :
    (k = l ∧ a = w.addr) ∨ (k ≠ l ∧ a ≠ w.addr ∧ t[k].owner = some a) := by
  unfold adopt at h
  rw [put_get] at h
  split at h
  · next hkl =>
    subst hkl
    exact .inl ⟨rfl, by simpa [heldFrom, LaneEntry.owner] using h.symm⟩
  · next hkl =>
    have := LaneTable.without_owner h
    exact .inr ⟨fun hk => hkl hk.symm, this.2, this.1⟩

theorem adopt_legal {m : Nat} {t : LaneTable} (h : t.Legal m) {l : Lane} (hl : l.val < m)
    (w : Announcement) : (adopt t l w).Legal m :=
  LaneTable.Legal.give (h.without w.addr) hl rfl fun _ hk => (LaneTable.without_owner hk).2 rfl

/-- Stage 1 keeps what every adoption keeps. -/
theorem repairTable_induction (win : Lane → Option Announcement) (before t : LaneTable)
    (P : LaneTable → Prop) (h0 : P t)
    (hs : ∀ u l w, P u → win l = some w → P (adopt u l w)) : P (repairTable win before t) := by
  unfold repairTable
  generalize List.finRange 4 = ls
  induction ls generalizing t with
  | nil => exact h0
  | cons l ls ih =>
    simp only [List.foldl_cons]
    refine ih _ ?_
    split
    · next w hw => exact hs t l w h0 (adoption_some hw).1
    · exact h0

theorem repairTable_legal {m : Nat} {xs : List Announcement} (before : LaneTable) {t : LaneTable}
    (h : t.Legal m) : (repairTable (winner m xs) before t).Legal m :=
  repairTable_induction _ _ _ _ h fun _ _ w hu hw => adopt_legal hu (winner_some hw).1 w

/-- An owner after stage 1 was an owner before it, or has won a lane (R112, R113). -/
theorem repairTable_owner {win : Lane → Option Announcement} {before t : LaneTable} {k : Lane}
    {a : Addr} (h : (repairTable win before t)[k].owner = some a) :
    (∃ l w, win l = some w ∧ w.addr = a) ∨ ∃ j : Lane, t[j].owner = some a := by
  revert h
  refine repairTable_induction win before t
    (fun u => ∀ j : Lane, u[j].owner = some a →
      (∃ l w, win l = some w ∧ w.addr = a) ∨ ∃ j : Lane, t[j].owner = some a)
    (fun j hj => .inr ⟨j, hj⟩) ?_ k
  intro u l w hu hw j hj
  rcases adopt_owner hj with ⟨-, rfl⟩ | ⟨-, -, h⟩
  · exact .inl ⟨l, w, hw, rfl⟩
  · exact hu j h

/-! ## Follow mode -/

/-- Follow mode keeps an owner or frees the lane (Table 7-1). -/
theorem followEntry_owner {d : Delivery} {w : Option Announcement} {e : LaneEntry} {a : Addr}
    (h : (followEntry d w e).owner = some a) : e.owner = some a := by
  unfold followEntry at h
  split at h
  · next o k ho hk =>
    rw [ho]
    split at h
    · split at h
      · exact h
      · simp at h
    · split at h
      · split at h <;> exact h
      · simp at h
  · simp at h

theorem followTable_owner {d : Delivery} {win : Lane → Option Announcement} {before : LaneTable}
    {l : Lane} {a : Addr} (h : (followTable d win before)[l].owner = some a) :
    (repairTable win before before)[l].owner = some a := by
  unfold followTable at h
  rw [ofFn_get] at h
  exact followEntry_owner h

theorem followTable_legal {m : Nat} {d : Delivery} {xs : List Announcement} {t : LaneTable}
    (h : t.Legal m) : (followTable d (winner m xs) t).Legal m :=
  (repairTable_legal t h).of_owners fun _ _ => followTable_owner

/-! ## Stages 2 and 3 -/

theorem stage2_get (d : Delivery) (t : LaneTable) (l : Lane) :
    (stage2 d t)[l] = match t[l].owner with
      | some o => if freedInStage2 d l o then .free else t[l]
      | none => .free :=
  ofFn_get _ l

/-- Stage 2 only frees (R91). -/
theorem stage2_owner {d : Delivery} {t : LaneTable} {l : Lane} {a : Addr}
    (h : (stage2 d t)[l].owner = some a) : t[l].owner = some a ∧ freedInStage2 d l a = false := by
  rw [stage2_get] at h
  split at h
  · next o ho =>
    split at h
    · simp at h
    · next hf =>
      rw [ho] at h ⊢
      cases h
      exact ⟨rfl, by simpa using hf⟩
  · simp at h

theorem confirm_owner (d : Delivery) (e : LaneEntry) : (confirm d e).owner = e.owner := by
  cases e <;> simp only [confirm] <;> split <;> rfl

/-- Stage 3 changes no owner (R92). -/
theorem stage3_owner (d : Delivery) (t : LaneTable) (l : Lane) :
    (stage3 d t)[l].owner = t[l].owner := by
  rw [stage3, ofFn_get, confirm_owner]

/-! ## The claim list -/

theorem claimOf_some {d : Delivery} {t : LaneTable} {a : Addr} {c : Claim}
    (h : claimOf d t a = some c) :
    c.addr = a ∧ d.peers[a].presence = .present ∧ t.laneOf a = none ∧
      ∃ r, d.entries[a] = some r ∧ r.request ≠ .none ∧ (hasMuteAll d = true → r.role = .chair) ∧
        c.priority = decide (r.request = .priority) ∧ c.wait = ageOf r.age ∧
        c.score = r.score.toNat := by
  unfold claimOf at h
  split at h
  · simp at h
  · next r hr =>
    split at h
    · next hc =>
      cases h
      exact ⟨rfl, hc.1, hc.2.2.1, r, hr, hc.2.1, hc.2.2.2, rfl, rfl, rfl⟩
    · simp at h

theorem insertClaim_perm (c : Claim) (cs : List Claim) : (insertClaim c cs).Perm (c :: cs) := by
  induction cs with
  | nil => simp [insertClaim]
  | cons x rest ih =>
    simp only [insertClaim]
    split
    · exact List.Perm.refl _
    · exact (ih.cons x).trans (List.Perm.swap c x rest)

theorem foldr_insertClaim_perm (cs : List Claim) : (cs.foldr insertClaim []).Perm cs := by
  induction cs with
  | nil => exact List.Perm.refl _
  | cons c cs ih => exact (insertClaim_perm c _).trans (ih.cons c)

/-- The claim list holds the claims of the addresses, in some order. -/
theorem claimList_perm (d : Delivery) (t : LaneTable) :
    (claimList d t).Perm ((List.finRange 16).filterMap (claimOf d t)) :=
  foldr_insertClaim_perm _

theorem mem_claimList {d : Delivery} {t : LaneTable} {c : Claim} :
    c ∈ claimList d t ↔ claimOf d t c.addr = some c := by
  rw [(claimList_perm d t).mem_iff, List.mem_filterMap]
  constructor
  · rintro ⟨a, -, h⟩
    rwa [(claimOf_some h).1]
  · intro h
    exact ⟨c.addr, List.mem_finRange _, h⟩

/-- No address stands twice in the claim list (R93). -/
theorem claimList_nodup (d : Delivery) (t : LaneTable) : ((claimList d t).map (·.addr)).Nodup := by
  rw [((claimList_perm d t).map _).nodup_iff]
  have h := List.nodup_finRange 16
  generalize List.finRange 16 = as at h ⊢
  induction as with
  | nil => simp
  | cons a as ih =>
    have hn := List.nodup_cons.mp h
    rw [List.filterMap_cons]
    split
    · exact ih hn.2
    · next c hc =>
      simp only [List.map_cons, List.nodup_cons, List.mem_map, List.mem_filterMap, not_exists,
        not_and]
      refine ⟨?_, ih hn.2⟩
      rintro c' ⟨b, hb, hbc⟩ heq
      rw [(claimOf_some hbc).1, (claimOf_some hc).1] at heq
      exact hn.1 (heq ▸ hb)

/-! ## Grants -/

@[simp] theorem grantTo_owner (c : Claim) : (grantTo c).owner = some c.addr := rfl

/-- A table and the claims that are left, no claimant of which owns a lane. -/
structure GrantSound (m : Nat) (t : LaneTable) (cs : List Claim) : Prop where
  legal : t.Legal m
  fresh : ∀ c ∈ cs, ∀ k : Lane, t[k].owner ≠ some c.addr
  nodup : (cs.map (·.addr)).Nodup

/-- A lane below `m` given to the first claim leaves a sound pair. -/
theorem GrantSound.give {m : Nat} {t : LaneTable} {c : Claim} {cs : List Claim}
    (h : GrantSound m t (c :: cs)) {l : Lane} (hl : l.val < m) :
    GrantSound m (Sys2Proof.put t l (grantTo c)) cs where
  legal := h.legal.give hl (grantTo_owner c) (h.fresh c List.mem_cons_self)
  fresh x hx k hk := by
    rw [put_get] at hk
    split at hk
    · rw [grantTo_owner] at hk
      have hn := (List.nodup_cons.mp h.nodup).1
      exact hn (List.mem_map.mpr ⟨x, hx, by simpa using hk.symm⟩)
    · exact h.fresh x (List.mem_cons_of_mem _ hx) k hk
  nodup := (List.nodup_cons.mp h.nodup).2

theorem giveLanes_sound {m : Nat} {ok : Lane → LaneEntry → Bool}
    (hok : ∀ (t : LaneTable) (l : Lane), t.Legal m → ok l t[l] = true → l.val < m) (ls : List Lane)
    {t : LaneTable} {cs : List Claim} (h : GrantSound m t cs) :
    GrantSound m (giveLanes ok ls t cs).1 (giveLanes ok ls t cs).2 := by
  induction ls generalizing t cs with
  | nil => exact h
  | cons l ls ih =>
    cases cs with
    | nil => exact h
    | cons c cs =>
      simp only [giveLanes]
      split
      · next hl => exact ih (h.give (hok t l h.legal hl))
      · exact ih h

/-- An owner after grants was an owner before, or a claimant. -/
theorem giveLanes_owner {ok : Lane → LaneEntry → Bool} (ls : List Lane) {t : LaneTable}
    {cs : List Claim} {k : Lane} {a : Addr} (h : (giveLanes ok ls t cs).1[k].owner = some a) :
    (∃ c ∈ cs, c.addr = a) ∨ t[k].owner = some a := by
  induction ls generalizing t cs with
  | nil => exact .inr h
  | cons l ls ih =>
    cases cs with
    | nil => exact .inr h
    | cons c cs =>
      simp only [giveLanes] at h
      split at h
      · rcases ih h with ⟨x, hx, rfl⟩ | h
        · exact .inl ⟨x, List.mem_cons_of_mem _ hx, rfl⟩
        · rw [put_get] at h
          split at h
          · exact .inl ⟨c, List.mem_cons_self, by simpa using h⟩
          · exact .inr h
      · exact ih h

/-- The claims left after grants were claims before. -/
theorem giveLanes_rest {ok : Lane → LaneEntry → Bool} (ls : List Lane) {t : LaneTable}
    {cs : List Claim} {c : Claim} (h : c ∈ (giveLanes ok ls t cs).2) : c ∈ cs := by
  induction ls generalizing t cs with
  | nil => exact h
  | cons l ls ih =>
    cases cs with
    | nil => exact h
    | cons x cs =>
      simp only [giveLanes] at h
      split at h
      · exact List.mem_cons_of_mem _ (ih h)
      · exact ih h

theorem stage5_rest {m : Nat} {t : LaneTable} {cs : List Claim} {c : Claim}
    (h : c ∈ (stage5 m t cs).2) : c ∈ cs := giveLanes_rest _ h

theorem stage6_rest {t : LaneTable} {cs : List Claim} {c : Claim} (h : c ∈ (stage6 t cs).2) :
    c ∈ cs := giveLanes_rest _ h

/-- A victim is a HELD lane of kind AUTO (R97, R98). -/
theorem isVictim_held {p : Policy} {c : Claim} {e : LaneEntry} (h : isVictim p c e = true) :
    ∃ o g s i, e = .held o .auto g s i := by
  unfold isVictim at h
  split at h
  · exact ⟨_, _, _, _, rfl⟩
  · simp at h

theorem chooseVictim_some {p : Policy} {c : Claim} {t : LaneTable} {l : Lane}
    (h : chooseVictim p c t = some l) : isVictim p c t[l] = true := by
  unfold chooseVictim at h
  have hmem : ∀ (ls : List Lane) (b : Option Lane),
      (∀ x ∈ ls, isVictim p c t[x] = true) → (∀ x, b = some x → isVictim p c t[x] = true) →
      ∀ x, ls.foldl (fun best l => match best with
        | none => some l
        | some b => if victimBefore t[l] t[b] then some l else some b) b = some x →
        isVictim p c t[x] = true := by
    intro ls
    induction ls with
    | nil => intro b _ hb x hx; exact hb x hx
    | cons y ys ih =>
      intro b hys hb x hx
      refine ih _ (fun z hz => hys z (List.mem_cons_of_mem _ hz)) ?_ x hx
      intro z hz
      dsimp only at hz
      split at hz
      · cases hz; exact hys y List.mem_cons_self
      · split at hz
        · cases hz; exact hys y List.mem_cons_self
        · cases hz; exact hb _ rfl
  exact hmem _ none (fun x hx => (List.mem_filter.mp hx).2) (by simp) l h

/-- What stage 7 can do: nothing, or give one HELD lane of kind AUTO to the first claim (R97, R98). -/
theorem stage7_cases (p : Policy) (t : LaneTable) (cs : List Claim) :
    stage7 p t cs = t ∨ ∃ c rest l, cs = c :: rest ∧ chooseVictim p c t = some l ∧
      isVictim p c t[l] = true ∧ stage7 p t cs = put t l (grantTo c) := by
  unfold stage7
  split
  · exact .inl rfl
  · next c rest =>
    split
    · next l hl => exact .inr ⟨c, rest, l, rfl, hl, chooseVictim_some hl, rfl⟩
    · exact .inl rfl

/-! ## The whole election -/

theorem stage3_legal {m : Nat} {d : Delivery} {t : LaneTable} (h : t.Legal m) :
    (stage3 d (stage2 d t)).Legal m :=
  h.of_owners fun l a hl => (stage2_owner (by rwa [stage3_owner] at hl)).1

/-- The pair of table and claim list that stages 3 and 4 leave is sound (R93). -/
theorem claimList_sound {m : Nat} {d : Delivery} {t : LaneTable} (h : t.Legal m) :
    GrantSound m t (claimList d t) where
  legal := h
  fresh _ hc k := LaneTable.laneOf_none.mp (claimOf_some (mem_claimList.mp hc)).2.2.1 k
  nodup := claimList_nodup d t

theorem stage5_sound {m : Nat} {t : LaneTable} {cs : List Claim} (h : GrantSound m t cs) :
    GrantSound m (stage5 m t cs).1 (stage5 m t cs).2 :=
  giveLanes_sound (fun _ _ _ hok => by simp at hok; exact hok.1) _ h

theorem stage6_sound {m : Nat} {t : LaneTable} {cs : List Claim} (h : GrantSound m t cs) :
    GrantSound m (stage6 t cs).1 (stage6 t cs).2 := by
  refine giveLanes_sound (fun t l ht hok => ?_) _ h
  by_contra hl
  rw [ht.unused l (by omega)] at hok
  simp [LaneEntry.isHeld] at hok

/-- The election keeps a table legal (R84). -/
theorem elect_legal {p : Policy} {d : Delivery} {t : LaneTable} (h : t.Legal d.m) :
    (elect p d t).after7.Legal d.m := by
  have h6 := stage6_sound (stage5_sound (claimList_sound (d := d) (stage3_legal (d := d) h)))
  simp only [elect]
  rcases stage7_cases p (stage6 (stage5 d.m (stage3 d (stage2 d t)) _).1 _).1
    (stage6 (stage5 d.m (stage3 d (stage2 d t)) _).1 _).2 with heq | ⟨_, _, l, hcs, -, hv, heq⟩
  · rw [heq]; exact h6.legal
  · rw [heq]
    obtain ⟨o, g, s, i, ho⟩ := isVictim_held hv
    rw [hcs] at h6
    exact (h6.give (h6.legal.lt_of_owner (l := l) (a := o) (by rw [ho]; rfl))).legal

/-- An owner after the election was an owner before it, or is PRESENT (R91 to R98). -/
theorem elect_owner {p : Policy} {d : Delivery} {t : LaneTable} {l : Lane} {a : Addr}
    (h : (elect p d t).after7[l].owner = some a) :
    t[l].owner = some a ∨ d.peers[a].presence = .present := by
  have claimant : ∀ c ∈ claimList d (stage3 d (stage2 d t)), c.addr = a →
      d.peers[a].presence = .present := by
    rintro c hc rfl
    exact (claimOf_some (mem_claimList.mp hc)).2.1
  have h6 : ∀ k : Lane, (elect p d t).after6[k].owner = some a →
      t[k].owner = some a ∨ d.peers[a].presence = .present := by
    intro k hk
    simp only [elect] at hk
    rcases giveLanes_owner _ hk with ⟨c, hc, rfl⟩ | hk
    · exact .inr (claimant c (giveLanes_rest _ hc) rfl)
    · rcases giveLanes_owner _ hk with ⟨c, hc, rfl⟩ | hk
      · exact .inr (claimant c hc rfl)
      · rw [stage3_owner] at hk
        exact .inl (stage2_owner hk).1
  rcases stage7_cases p (elect p d t).after6
    (stage6 (stage5 d.m (stage3 d (stage2 d t)) (claimList d (stage3 d (stage2 d t)))).1
      (stage5 d.m (stage3 d (stage2 d t)) (claimList d (stage3 d (stage2 d t)))).2).2
    with heq | ⟨c, rest, k, hcs, -, hv, heq⟩
  · exact h6 l (by rw [← heq]; exact h)
  · have h' : (put (elect p d t).after6 k (grantTo c))[l].owner = some a := by rw [← heq]; exact h
    rw [put_get] at h'
    split at h'
    · refine .inr (claimant c ?_ (by simpa using h'))
      exact stage5_rest (stage6_rest (hcs ▸ List.mem_cons_self))
    · exact h6 l h'

end Sys2Proof.Machine
end

