-- ==== Sys2Proof/Laws/Census.lean ====
section
/-! SUPPORT. The census close: what the beat unit and the lane manager can change. -/

namespace Sys2Proof.Machine

/-! ## The beat unit's decisions (R55 to R59) -/

@[simp] theorem State.beatAtCensus_keys_straps (c : Bool) (s : State) :
    (s.beatAtCensus c).1.keys.straps = s.keys.straps := by
  unfold State.beatAtCensus State.observe State.recheck State.waitConflict State.enter State.enterConflict
    State.becomeLocked State.changeSync
  dsimp only
  repeat' (first | rfl | exact KeyUnit.onSync_straps _ _ _ | split)

@[simp] theorem State.beatAtCensus_keys_fingerprint (c : Bool) (s : State) :
    (s.beatAtCensus c).1.keys.fingerprint = s.keys.fingerprint := by
  unfold State.beatAtCensus State.observe State.recheck State.waitConflict State.enter State.enterConflict
    State.becomeLocked State.changeSync
  dsimp only
  repeat' (first | rfl | exact KeyUnit.onSync_fingerprint _ _ _ | split)

@[simp] theorem State.beatAtCensus_keys_keyA (c : Bool) (s : State) :
    (s.beatAtCensus c).1.keys.keyA = s.keys.keyA := by
  unfold State.beatAtCensus State.observe State.recheck State.waitConflict State.enter State.enterConflict
    State.becomeLocked State.changeSync
  dsimp only
  repeat' (first | rfl | exact KeyUnit.onSync_keyA _ _ _ | split)

@[simp] theorem State.beatAtCensus_keys_keyB (c : Bool) (s : State) :
    (s.beatAtCensus c).1.keys.keyB = s.keys.keyB := by
  unfold State.beatAtCensus State.observe State.recheck State.waitConflict State.enter State.enterConflict
    State.becomeLocked State.changeSync
  dsimp only
  repeat' (first | rfl | exact KeyUnit.onSync_keyB _ _ _ | split)

@[simp] theorem State.beatAtCensus_keys_muteLatch (c : Bool) (s : State) :
    (s.beatAtCensus c).1.keys.muteLatch = s.keys.muteLatch := by
  unfold State.beatAtCensus State.observe State.recheck State.waitConflict State.enter State.enterConflict
    State.becomeLocked State.changeSync
  dsimp only
  repeat' (first | rfl | exact KeyUnit.onSync_muteLatch _ _ _ | split)

@[simp] theorem State.beatAtCensus_inReset (c : Bool) (s : State) :
    (s.beatAtCensus c).1.inReset = s.inReset := by
  unfold State.beatAtCensus State.observe State.recheck State.waitConflict State.enter State.enterConflict
    State.becomeLocked State.changeSync
  dsimp only
  repeat' (first | rfl | split)

@[simp] theorem State.beatAtCensus_capture (c : Bool) (s : State) :
    (s.beatAtCensus c).1.capture = s.capture := by
  unfold State.beatAtCensus State.observe State.recheck State.waitConflict State.enter State.enterConflict
    State.becomeLocked State.changeSync
  dsimp only
  repeat' (first | rfl | split)

@[simp] theorem State.beatAtCensus_detector (c : Bool) (s : State) :
    (s.beatAtCensus c).1.detector = s.detector := by
  unfold State.beatAtCensus State.observe State.recheck State.waitConflict State.enter State.enterConflict
    State.becomeLocked State.changeSync
  dsimp only
  repeat' (first | rfl | split)

@[simp] theorem State.beatAtCensus_line (c : Bool) (s : State) :
    (s.beatAtCensus c).1.line = s.line := by
  unfold State.beatAtCensus State.observe State.recheck State.waitConflict State.enter State.enterConflict
    State.becomeLocked State.changeSync
  dsimp only
  repeat' (first | rfl | split)

@[simp] theorem State.beatAtCensus_lanes (c : Bool) (s : State) :
    (s.beatAtCensus c).1.lanes = s.lanes := by
  unfold State.beatAtCensus State.observe State.recheck State.waitConflict State.enter State.enterConflict
    State.becomeLocked State.changeSync
  dsimp only
  repeat' (first | rfl | split)

@[simp] theorem State.beatAtCensus_audio (c : Bool) (s : State) :
    (s.beatAtCensus c).1.audio = s.audio := by
  unfold State.beatAtCensus State.observe State.recheck State.waitConflict State.enter State.enterConflict
    State.becomeLocked State.changeSync
  dsimp only
  repeat' (first | rfl | split)

@[simp] theorem State.beatAtCensus_mix (c : Bool) (s : State) :
    (s.beatAtCensus c).1.mix = s.mix := by
  unfold State.beatAtCensus State.observe State.recheck State.waitConflict State.enter State.enterConflict
    State.becomeLocked State.changeSync
  dsimp only
  repeat' (first | rfl | split)

@[simp] theorem State.beatAtCensus_status (c : Bool) (s : State) :
    (s.beatAtCensus c).1.status = s.status := by
  unfold State.beatAtCensus State.observe State.recheck State.waitConflict State.enter State.enterConflict
    State.becomeLocked State.changeSync
  dsimp only
  repeat' (first | rfl | split)

@[simp] theorem State.beatAtCensus_cycleStarts (c : Bool) (s : State) :
    (s.beatAtCensus c).1.cycleStarts = s.cycleStarts := by
  unfold State.beatAtCensus State.observe State.recheck State.waitConflict State.enter State.enterConflict
    State.becomeLocked State.changeSync
  dsimp only
  repeat' (first | rfl | split)

@[simp] theorem State.beatAtCensus_pending (c : Bool) (s : State) :
    (s.beatAtCensus c).1.pending = s.pending := by
  unfold State.beatAtCensus State.observe State.recheck State.waitConflict State.enter State.enterConflict
    State.becomeLocked State.changeSync
  dsimp only
  repeat' (first | rfl | split)

@[simp] theorem State.beatAtCensus_own (c : Bool) (s : State) :
    (s.beatAtCensus c).1.own = s.own := by
  simp [State.own]

@[simp] theorem State.beatAtCensus_role (c : Bool) (s : State) :
    (s.beatAtCensus c).1.role = s.role := by
  simp [State.role]

@[simp] theorem State.beatAtCensus_laneCount (c : Bool) (s : State) :
    (s.beatAtCensus c).1.laneCount = s.laneCount := by
  simp [State.laneCount]

@[simp] theorem State.beatAtCensus_census_entries (c : Bool) (s : State) :
    (s.beatAtCensus c).1.census.entries = s.census.entries := by
  unfold State.beatAtCensus State.observe State.recheck State.waitConflict State.enter State.enterConflict
    State.becomeLocked State.changeSync
  dsimp only
  repeat' (first | rfl | split)

@[simp] theorem State.beatAtCensus_census_readback (c : Bool) (s : State) :
    (s.beatAtCensus c).1.census.readback = s.census.readback := by
  unfold State.beatAtCensus State.observe State.recheck State.waitConflict State.enter State.enterConflict
    State.becomeLocked State.changeSync
  dsimp only
  repeat' (first | rfl | split)

@[simp] theorem State.beatAtCensus_census_reportTx (c : Bool) (s : State) :
    (s.beatAtCensus c).1.census.reportTx = s.census.reportTx := by
  unfold State.beatAtCensus State.observe State.recheck State.waitConflict State.enter State.enterConflict
    State.becomeLocked State.changeSync
  dsimp only
  repeat' (first | rfl | split)

@[simp] theorem State.beatAtCensus_beat_timer (c : Bool) (s : State) :
    (s.beatAtCensus c).1.beat.timer = s.beat.timer := by
  unfold State.beatAtCensus State.observe State.recheck State.waitConflict State.enter State.enterConflict
    State.becomeLocked State.changeSync
  dsimp only
  repeat' (first | rfl | split)

@[simp] theorem State.beatAtCensus_beat_cycle (c : Bool) (s : State) :
    (s.beatAtCensus c).1.beat.cycle = s.beat.cycle := by
  unfold State.beatAtCensus State.observe State.recheck State.waitConflict State.enter State.enterConflict
    State.becomeLocked State.changeSync
  dsimp only
  repeat' (first | rfl | split)

@[simp] theorem State.beatAtCensus_beat_barred (c : Bool) (s : State) :
    (s.beatAtCensus c).1.beat.barred = s.beat.barred := by
  unfold State.beatAtCensus State.observe State.recheck State.waitConflict State.enter State.enterConflict
    State.becomeLocked State.changeSync
  dsimp only
  repeat' (first | rfl | split)

@[simp] theorem State.beatAtCensus_beat_failures (c : Bool) (s : State) :
    (s.beatAtCensus c).1.beat.failures = s.beat.failures := by
  unfold State.beatAtCensus State.observe State.recheck State.waitConflict State.enter State.enterConflict
    State.becomeLocked State.changeSync
  dsimp only
  repeat' (first | rfl | split)

@[simp] theorem State.beatAtCensus_beat_coldStart (c : Bool) (s : State) :
    (s.beatAtCensus c).1.beat.coldStart = s.beat.coldStart := by
  unfold State.beatAtCensus State.observe State.recheck State.waitConflict State.enter State.enterConflict
    State.becomeLocked State.changeSync
  dsimp only
  repeat' (first | rfl | split)

@[simp] theorem State.beatAtCensus_beat_waitOpen (c : Bool) (s : State) :
    (s.beatAtCensus c).1.beat.waitOpen = s.beat.waitOpen := by
  unfold State.beatAtCensus State.observe State.recheck State.waitConflict State.enter State.enterConflict
    State.becomeLocked State.changeSync
  dsimp only
  repeat' (first | rfl | split)

@[simp] theorem State.beatAtCensus_beat_request (c : Bool) (s : State) :
    (s.beatAtCensus c).1.beat.request = s.beat.request := by
  unfold State.beatAtCensus State.observe State.recheck State.waitConflict State.enter State.enterConflict
    State.becomeLocked State.changeSync
  dsimp only
  repeat' (first | rfl | split)

@[simp] theorem State.beatAtCensus_beat_takerAt (c : Bool) (s : State) :
    (s.beatAtCensus c).1.beat.takerAt = s.beat.takerAt := by
  unfold State.beatAtCensus State.observe State.recheck State.waitConflict State.enter State.enterConflict
    State.becomeLocked State.changeSync
  dsimp only
  repeat' (first | rfl | split)

@[simp] theorem State.beatAtCensus_beat_firstBeat (c : Bool) (s : State) :
    (s.beatAtCensus c).1.beat.firstBeat = s.beat.firstBeat := by
  unfold State.beatAtCensus State.observe State.recheck State.waitConflict State.enter State.enterConflict
    State.becomeLocked State.changeSync
  dsimp only
  repeat' (first | rfl | split)

/-- Sync state, candidate flag and own entry stand as they did, or all three are set together (R59, R80). -/
def SetsTogether (s t : State) : Prop :=
  (t.beat.sync = s.beat.sync ∧ t.beat.candidate = s.beat.candidate ∧ t.census.peers = s.census.peers) ∨
  (t.beat.candidate = (decide (t.beat.sync = .locked) && decide (s.beat.barred = 0)) ∧
    t.census.peers = put s.census.peers s.own (ownEntry t.beat.sync))

/-- The beat unit's decisions leave the sync state as it is, with candidate flag and own entry as they
are, or set all three together (R59, R80). -/
theorem State.beatAtCensus_sync (c : Bool) (s : State) : SetsTogether s (s.beatAtCensus c).1 := by
  unfold State.beatAtCensus State.observe State.recheck State.waitConflict State.enter State.enterConflict
    State.becomeLocked State.changeSync
  dsimp only
  repeat' (first | exact .inl ⟨rfl, rfl, rfl⟩ | exact .inr ⟨rfl, rfl⟩ | split)

/-- A LOCKED node leaves LOCKED at a census close only on an own-slot conflict, for CONFLICT (R58). -/
theorem State.beatAtCensus_locked {c : Bool} {s : State} (h : s.beat.sync = .locked) :
    (s.beatAtCensus c).1.beat.sync = if c then .conflict else .locked := by
  unfold State.beatAtCensus
  simp only [h]
  cases c
  · exact h
  · rfl

/-- No census close leads to LISTEN or ALIGNING by the beat unit's decisions. -/
theorem State.beatAtCensus_receives {c : Bool} {s : State} (h : s.beat.sync.receives = true) :
    (s.beatAtCensus c).1.beat.sync.receives = true := by
  unfold State.beatAtCensus State.observe State.recheck State.waitConflict State.enter State.enterConflict
    State.becomeLocked State.changeSync
  dsimp only
  repeat' (first | rfl | exact h | split)

/-! ## The lane manager (R90) -/

@[simp] theorem State.compareDigests_inReset (d : Delivery) (b : BitVec 16) (s : State) :
    (s.compareDigests d b).1.inReset = s.inReset := by
  unfold State.compareDigests
  repeat' (first | rfl | split)

@[simp] theorem State.compareDigests_capture (d : Delivery) (b : BitVec 16) (s : State) :
    (s.compareDigests d b).1.capture = s.capture := by
  unfold State.compareDigests
  repeat' (first | rfl | split)

@[simp] theorem State.compareDigests_detector (d : Delivery) (b : BitVec 16) (s : State) :
    (s.compareDigests d b).1.detector = s.detector := by
  unfold State.compareDigests
  repeat' (first | rfl | split)

@[simp] theorem State.compareDigests_line (d : Delivery) (b : BitVec 16) (s : State) :
    (s.compareDigests d b).1.line = s.line := by
  unfold State.compareDigests
  repeat' (first | rfl | split)

@[simp] theorem State.compareDigests_beat (d : Delivery) (b : BitVec 16) (s : State) :
    (s.compareDigests d b).1.beat = s.beat := by
  unfold State.compareDigests
  repeat' (first | rfl | split)

@[simp] theorem State.compareDigests_census (d : Delivery) (b : BitVec 16) (s : State) :
    (s.compareDigests d b).1.census = s.census := by
  unfold State.compareDigests
  repeat' (first | rfl | split)

@[simp] theorem State.compareDigests_audio (d : Delivery) (b : BitVec 16) (s : State) :
    (s.compareDigests d b).1.audio = s.audio := by
  unfold State.compareDigests
  repeat' (first | rfl | split)

@[simp] theorem State.compareDigests_mix (d : Delivery) (b : BitVec 16) (s : State) :
    (s.compareDigests d b).1.mix = s.mix := by
  unfold State.compareDigests
  repeat' (first | rfl | split)

@[simp] theorem State.compareDigests_keys (d : Delivery) (b : BitVec 16) (s : State) :
    (s.compareDigests d b).1.keys = s.keys := by
  unfold State.compareDigests
  repeat' (first | rfl | split)

@[simp] theorem State.compareDigests_status (d : Delivery) (b : BitVec 16) (s : State) :
    (s.compareDigests d b).1.status = s.status := by
  unfold State.compareDigests
  repeat' (first | rfl | split)

@[simp] theorem State.compareDigests_cycleStarts (d : Delivery) (b : BitVec 16) (s : State) :
    (s.compareDigests d b).1.cycleStarts = s.cycleStarts := by
  unfold State.compareDigests
  repeat' (first | rfl | split)

@[simp] theorem State.compareDigests_pending (d : Delivery) (b : BitVec 16) (s : State) :
    (s.compareDigests d b).1.pending = s.pending := by
  unfold State.compareDigests
  repeat' (first | rfl | split)

@[simp] theorem State.compareDigests_own (d : Delivery) (b : BitVec 16) (s : State) :
    (s.compareDigests d b).1.own = s.own := by
  unfold State.compareDigests
  repeat' (first | rfl | split)

@[simp] theorem State.compareDigests_role (d : Delivery) (b : BitVec 16) (s : State) :
    (s.compareDigests d b).1.role = s.role := by
  unfold State.compareDigests
  repeat' (first | rfl | split)

@[simp] theorem State.compareDigests_laneCount (d : Delivery) (b : BitVec 16) (s : State) :
    (s.compareDigests d b).1.laneCount = s.laneCount := by
  unfold State.compareDigests
  repeat' (first | rfl | split)

@[simp] theorem State.compareDigests_delivery (d : Delivery) (b : BitVec 16) (s : State) :
    (s.compareDigests d b).1.delivery = s.delivery := by
  unfold State.compareDigests
  repeat' (first | rfl | split)

@[simp] theorem State.compareDigests_lanes_table (d : Delivery) (b : BitVec 16) (s : State) :
    (s.compareDigests d b).1.lanes.table = s.lanes.table := by
  unfold State.compareDigests
  repeat' (first | rfl | split)

@[simp] theorem State.compareDigests_lanes_slotCopy (d : Delivery) (b : BitVec 16) (s : State) :
    (s.compareDigests d b).1.lanes.slotCopy = s.lanes.slotCopy := by
  unfold State.compareDigests
  repeat' (first | rfl | split)

@[simp] theorem State.compareDigests_lanes_digest (d : Delivery) (b : BitVec 16) (s : State) :
    (s.compareDigests d b).1.lanes.digest = s.lanes.digest := by
  unfold State.compareDigests
  repeat' (first | rfl | split)

@[simp] theorem State.compareDigests_lanes_request (d : Delivery) (b : BitVec 16) (s : State) :
    (s.compareDigests d b).1.lanes.request = s.lanes.request := by
  unfold State.compareDigests
  repeat' (first | rfl | split)

@[simp] theorem State.compareDigests_lanes_waitAge (d : Delivery) (b : BitVec 16) (s : State) :
    (s.compareDigests d b).1.lanes.waitAge = s.lanes.waitAge := by
  unfold State.compareDigests
  repeat' (first | rfl | split)

@[simp] theorem State.compareDigests_lanes_releasePending (d : Delivery) (b : BitVec 16) (s : State) :
    (s.compareDigests d b).1.lanes.releasePending = s.lanes.releasePending := by
  unfold State.compareDigests
  repeat' (first | rfl | split)

@[simp] theorem State.compareDigests_lanes_idleHold (d : Delivery) (b : BitVec 16) (s : State) :
    (s.compareDigests d b).1.lanes.idleHold = s.lanes.idleHold := by
  unfold State.compareDigests
  repeat' (first | rfl | split)

@[simp] theorem State.compareDigests_lanes_laneCollisions (d : Delivery) (b : BitVec 16) (s : State) :
    (s.compareDigests d b).1.lanes.laneCollisions = s.lanes.laneCollisions := by
  unfold State.compareDigests
  repeat' (first | rfl | split)

@[simp] theorem State.compareDigests_lanes_closingCycle (d : Delivery) (b : BitVec 16) (s : State) :
    (s.compareDigests d b).1.lanes.closingCycle = s.lanes.closingCycle := by
  unfold State.compareDigests
  repeat' (first | rfl | split)

@[simp] theorem State.compareDigests_lanes_cutInCycle (d : Delivery) (b : BitVec 16) (s : State) :
    (s.compareDigests d b).1.lanes.cutInCycle = s.lanes.cutInCycle := by
  unfold State.compareDigests
  repeat' (first | rfl | split)

@[simp] theorem State.keepLane_inReset (t : LaneTable) (m : Bool) (l : Lane) (s : State) :
    (s.keepLane t m l).inReset = s.inReset := by
  unfold State.keepLane
  dsimp only
  repeat' (first | rfl | split)

@[simp] theorem State.keepLane_capture (t : LaneTable) (m : Bool) (l : Lane) (s : State) :
    (s.keepLane t m l).capture = s.capture := by
  unfold State.keepLane
  dsimp only
  repeat' (first | rfl | split)

@[simp] theorem State.keepLane_detector (t : LaneTable) (m : Bool) (l : Lane) (s : State) :
    (s.keepLane t m l).detector = s.detector := by
  unfold State.keepLane
  dsimp only
  repeat' (first | rfl | split)

@[simp] theorem State.keepLane_line (t : LaneTable) (m : Bool) (l : Lane) (s : State) :
    (s.keepLane t m l).line = s.line := by
  unfold State.keepLane
  dsimp only
  repeat' (first | rfl | split)

@[simp] theorem State.keepLane_beat (t : LaneTable) (m : Bool) (l : Lane) (s : State) :
    (s.keepLane t m l).beat = s.beat := by
  unfold State.keepLane
  dsimp only
  repeat' (first | rfl | split)

@[simp] theorem State.keepLane_census (t : LaneTable) (m : Bool) (l : Lane) (s : State) :
    (s.keepLane t m l).census = s.census := by
  unfold State.keepLane
  dsimp only
  repeat' (first | rfl | split)

@[simp] theorem State.keepLane_audio (t : LaneTable) (m : Bool) (l : Lane) (s : State) :
    (s.keepLane t m l).audio = s.audio := by
  unfold State.keepLane
  dsimp only
  repeat' (first | rfl | split)

@[simp] theorem State.keepLane_mix (t : LaneTable) (m : Bool) (l : Lane) (s : State) :
    (s.keepLane t m l).mix = s.mix := by
  unfold State.keepLane
  dsimp only
  repeat' (first | rfl | split)

@[simp] theorem State.keepLane_keys (t : LaneTable) (m : Bool) (l : Lane) (s : State) :
    (s.keepLane t m l).keys = s.keys := by
  unfold State.keepLane
  dsimp only
  repeat' (first | rfl | split)

@[simp] theorem State.keepLane_status (t : LaneTable) (m : Bool) (l : Lane) (s : State) :
    (s.keepLane t m l).status = s.status := by
  unfold State.keepLane
  dsimp only
  repeat' (first | rfl | split)

@[simp] theorem State.keepLane_cycleStarts (t : LaneTable) (m : Bool) (l : Lane) (s : State) :
    (s.keepLane t m l).cycleStarts = s.cycleStarts := by
  unfold State.keepLane
  dsimp only
  repeat' (first | rfl | split)

@[simp] theorem State.keepLane_pending (t : LaneTable) (m : Bool) (l : Lane) (s : State) :
    (s.keepLane t m l).pending = s.pending := by
  unfold State.keepLane
  dsimp only
  repeat' (first | rfl | split)

@[simp] theorem State.keepLane_own (t : LaneTable) (m : Bool) (l : Lane) (s : State) :
    (s.keepLane t m l).own = s.own := by
  unfold State.keepLane
  dsimp only
  repeat' (first | rfl | split)

@[simp] theorem State.keepLane_role (t : LaneTable) (m : Bool) (l : Lane) (s : State) :
    (s.keepLane t m l).role = s.role := by
  unfold State.keepLane
  dsimp only
  repeat' (first | rfl | split)

@[simp] theorem State.keepLane_laneCount (t : LaneTable) (m : Bool) (l : Lane) (s : State) :
    (s.keepLane t m l).laneCount = s.laneCount := by
  unfold State.keepLane
  dsimp only
  repeat' (first | rfl | split)

@[simp] theorem State.keepLane_delivery (t : LaneTable) (m : Bool) (l : Lane) (s : State) :
    (s.keepLane t m l).delivery = s.delivery := by
  unfold State.keepLane
  dsimp only
  repeat' (first | rfl | split)

@[simp] theorem State.keepLane_lanes_table (t : LaneTable) (m : Bool) (l : Lane) (s : State) :
    (s.keepLane t m l).lanes.table = s.lanes.table := by
  unfold State.keepLane
  dsimp only
  repeat' (first | rfl | split)

@[simp] theorem State.keepLane_lanes_slotCopy (t : LaneTable) (m : Bool) (l : Lane) (s : State) :
    (s.keepLane t m l).lanes.slotCopy = s.lanes.slotCopy := by
  unfold State.keepLane
  dsimp only
  repeat' (first | rfl | split)

@[simp] theorem State.keepLane_lanes_digest (t : LaneTable) (m : Bool) (l : Lane) (s : State) :
    (s.keepLane t m l).lanes.digest = s.lanes.digest := by
  unfold State.keepLane
  dsimp only
  repeat' (first | rfl | split)

@[simp] theorem State.keepLane_lanes_request (t : LaneTable) (m : Bool) (l : Lane) (s : State) :
    (s.keepLane t m l).lanes.request = s.lanes.request := by
  unfold State.keepLane
  dsimp only
  repeat' (first | rfl | split)

@[simp] theorem State.keepLane_lanes_waitAge (t : LaneTable) (m : Bool) (l : Lane) (s : State) :
    (s.keepLane t m l).lanes.waitAge = s.lanes.waitAge := by
  unfold State.keepLane
  dsimp only
  repeat' (first | rfl | split)

@[simp] theorem State.keepLane_lanes_divergence (t : LaneTable) (m : Bool) (l : Lane) (s : State) :
    (s.keepLane t m l).lanes.divergence = s.lanes.divergence := by
  unfold State.keepLane
  dsimp only
  repeat' (first | rfl | split)

@[simp] theorem State.keepLane_lanes_laneCollisions (t : LaneTable) (m : Bool) (l : Lane) (s : State) :
    (s.keepLane t m l).lanes.laneCollisions = s.lanes.laneCollisions := by
  unfold State.keepLane
  dsimp only
  repeat' (first | rfl | split)

@[simp] theorem State.keepLane_lanes_closingCycle (t : LaneTable) (m : Bool) (l : Lane) (s : State) :
    (s.keepLane t m l).lanes.closingCycle = s.lanes.closingCycle := by
  unfold State.keepLane
  dsimp only
  repeat' (first | rfl | split)

@[simp] theorem State.keepLane_lanes_cutInCycle (t : LaneTable) (m : Bool) (l : Lane) (s : State) :
    (s.keepLane t m l).lanes.cutInCycle = s.lanes.cutInCycle := by
  unfold State.keepLane
  dsimp only
  repeat' (first | rfl | split)

@[simp] theorem State.ownerSide_inReset (b : LaneTable) (lost m : Bool) (r : ElectionResult) (s : State) :
    (s.ownerSide b lost m r).1.inReset = s.inReset := by
  unfold State.ownerSide State.keepLane
  dsimp only
  repeat' (first | rfl | split)

@[simp] theorem State.ownerSide_capture (b : LaneTable) (lost m : Bool) (r : ElectionResult) (s : State) :
    (s.ownerSide b lost m r).1.capture = s.capture := by
  unfold State.ownerSide State.keepLane
  dsimp only
  repeat' (first | rfl | split)

@[simp] theorem State.ownerSide_detector (b : LaneTable) (lost m : Bool) (r : ElectionResult) (s : State) :
    (s.ownerSide b lost m r).1.detector = s.detector := by
  unfold State.ownerSide State.keepLane
  dsimp only
  repeat' (first | rfl | split)

@[simp] theorem State.ownerSide_line (b : LaneTable) (lost m : Bool) (r : ElectionResult) (s : State) :
    (s.ownerSide b lost m r).1.line = s.line := by
  unfold State.ownerSide State.keepLane
  dsimp only
  repeat' (first | rfl | split)

@[simp] theorem State.ownerSide_beat (b : LaneTable) (lost m : Bool) (r : ElectionResult) (s : State) :
    (s.ownerSide b lost m r).1.beat = s.beat := by
  unfold State.ownerSide State.keepLane
  dsimp only
  repeat' (first | rfl | split)

@[simp] theorem State.ownerSide_census (b : LaneTable) (lost m : Bool) (r : ElectionResult) (s : State) :
    (s.ownerSide b lost m r).1.census = s.census := by
  unfold State.ownerSide State.keepLane
  dsimp only
  repeat' (first | rfl | split)

@[simp] theorem State.ownerSide_audio (b : LaneTable) (lost m : Bool) (r : ElectionResult) (s : State) :
    (s.ownerSide b lost m r).1.audio = s.audio := by
  unfold State.ownerSide State.keepLane
  dsimp only
  repeat' (first | rfl | split)

@[simp] theorem State.ownerSide_mix (b : LaneTable) (lost m : Bool) (r : ElectionResult) (s : State) :
    (s.ownerSide b lost m r).1.mix = s.mix := by
  unfold State.ownerSide State.keepLane
  dsimp only
  repeat' (first | rfl | split)

@[simp] theorem State.ownerSide_keys (b : LaneTable) (lost m : Bool) (r : ElectionResult) (s : State) :
    (s.ownerSide b lost m r).1.keys = s.keys := by
  unfold State.ownerSide State.keepLane
  dsimp only
  repeat' (first | rfl | split)

@[simp] theorem State.ownerSide_status (b : LaneTable) (lost m : Bool) (r : ElectionResult) (s : State) :
    (s.ownerSide b lost m r).1.status = s.status := by
  unfold State.ownerSide State.keepLane
  dsimp only
  repeat' (first | rfl | split)

@[simp] theorem State.ownerSide_cycleStarts (b : LaneTable) (lost m : Bool) (r : ElectionResult) (s : State) :
    (s.ownerSide b lost m r).1.cycleStarts = s.cycleStarts := by
  unfold State.ownerSide State.keepLane
  dsimp only
  repeat' (first | rfl | split)

@[simp] theorem State.ownerSide_pending (b : LaneTable) (lost m : Bool) (r : ElectionResult) (s : State) :
    (s.ownerSide b lost m r).1.pending = s.pending := by
  unfold State.ownerSide State.keepLane
  dsimp only
  repeat' (first | rfl | split)

@[simp] theorem State.ownerSide_own (b : LaneTable) (lost m : Bool) (r : ElectionResult) (s : State) :
    (s.ownerSide b lost m r).1.own = s.own := by
  unfold State.ownerSide State.keepLane
  dsimp only
  repeat' (first | rfl | split)

@[simp] theorem State.ownerSide_role (b : LaneTable) (lost m : Bool) (r : ElectionResult) (s : State) :
    (s.ownerSide b lost m r).1.role = s.role := by
  unfold State.ownerSide State.keepLane
  dsimp only
  repeat' (first | rfl | split)

@[simp] theorem State.ownerSide_laneCount (b : LaneTable) (lost m : Bool) (r : ElectionResult) (s : State) :
    (s.ownerSide b lost m r).1.laneCount = s.laneCount := by
  unfold State.ownerSide State.keepLane
  dsimp only
  repeat' (first | rfl | split)

@[simp] theorem State.ownerSide_delivery (b : LaneTable) (lost m : Bool) (r : ElectionResult) (s : State) :
    (s.ownerSide b lost m r).1.delivery = s.delivery := by
  unfold State.ownerSide State.keepLane
  dsimp only
  repeat' (first | rfl | split)

@[simp] theorem State.ownerSide_lanes_table (b : LaneTable) (lost m : Bool) (r : ElectionResult) (s : State) :
    (s.ownerSide b lost m r).1.lanes.table = s.lanes.table := by
  unfold State.ownerSide State.keepLane
  dsimp only
  repeat' (first | rfl | split)

@[simp] theorem State.ownerSide_lanes_slotCopy (b : LaneTable) (lost m : Bool) (r : ElectionResult) (s : State) :
    (s.ownerSide b lost m r).1.lanes.slotCopy = s.lanes.slotCopy := by
  unfold State.ownerSide State.keepLane
  dsimp only
  repeat' (first | rfl | split)

@[simp] theorem State.ownerSide_lanes_digest (b : LaneTable) (lost m : Bool) (r : ElectionResult) (s : State) :
    (s.ownerSide b lost m r).1.lanes.digest = s.lanes.digest := by
  unfold State.ownerSide State.keepLane
  dsimp only
  repeat' (first | rfl | split)

@[simp] theorem State.ownerSide_lanes_request (b : LaneTable) (lost m : Bool) (r : ElectionResult) (s : State) :
    (s.ownerSide b lost m r).1.lanes.request = s.lanes.request := by
  unfold State.ownerSide State.keepLane
  dsimp only
  repeat' (first | rfl | split)

@[simp] theorem State.ownerSide_lanes_waitAge (b : LaneTable) (lost m : Bool) (r : ElectionResult) (s : State) :
    (s.ownerSide b lost m r).1.lanes.waitAge = s.lanes.waitAge := by
  unfold State.ownerSide State.keepLane
  dsimp only
  repeat' (first | rfl | split)

@[simp] theorem State.ownerSide_lanes_divergence (b : LaneTable) (lost m : Bool) (r : ElectionResult) (s : State) :
    (s.ownerSide b lost m r).1.lanes.divergence = s.lanes.divergence := by
  unfold State.ownerSide State.keepLane
  dsimp only
  repeat' (first | rfl | split)

@[simp] theorem State.ownerSide_lanes_closingCycle (b : LaneTable) (lost m : Bool) (r : ElectionResult) (s : State) :
    (s.ownerSide b lost m r).1.lanes.closingCycle = s.lanes.closingCycle := by
  unfold State.ownerSide State.keepLane
  dsimp only
  repeat' (first | rfl | split)

@[simp] theorem State.ownerSide_lanes_cutInCycle (b : LaneTable) (lost m : Bool) (r : ElectionResult) (s : State) :
    (s.ownerSide b lost m r).1.lanes.cutInCycle = s.lanes.cutInCycle := by
  unfold State.ownerSide State.keepLane
  dsimp only
  repeat' (first | rfl | split)

@[simp] theorem State.settleOwn_inReset (s : State) :
    s.settleOwn.1.inReset = s.inReset := by
  unfold State.settleOwn
  dsimp only
  repeat' (first | rfl | split)

@[simp] theorem State.settleOwn_capture (s : State) :
    s.settleOwn.1.capture = s.capture := by
  unfold State.settleOwn
  dsimp only
  repeat' (first | rfl | split)

@[simp] theorem State.settleOwn_detector (s : State) :
    s.settleOwn.1.detector = s.detector := by
  unfold State.settleOwn
  dsimp only
  repeat' (first | rfl | split)

@[simp] theorem State.settleOwn_line (s : State) :
    s.settleOwn.1.line = s.line := by
  unfold State.settleOwn
  dsimp only
  repeat' (first | rfl | split)

@[simp] theorem State.settleOwn_beat (s : State) :
    s.settleOwn.1.beat = s.beat := by
  unfold State.settleOwn
  dsimp only
  repeat' (first | rfl | split)

@[simp] theorem State.settleOwn_census (s : State) :
    s.settleOwn.1.census = s.census := by
  unfold State.settleOwn
  dsimp only
  repeat' (first | rfl | split)

@[simp] theorem State.settleOwn_audio (s : State) :
    s.settleOwn.1.audio = s.audio := by
  unfold State.settleOwn
  dsimp only
  repeat' (first | rfl | split)

@[simp] theorem State.settleOwn_mix (s : State) :
    s.settleOwn.1.mix = s.mix := by
  unfold State.settleOwn
  dsimp only
  repeat' (first | rfl | split)

@[simp] theorem State.settleOwn_keys (s : State) :
    s.settleOwn.1.keys = s.keys := by
  unfold State.settleOwn
  dsimp only
  repeat' (first | rfl | split)

@[simp] theorem State.settleOwn_status (s : State) :
    s.settleOwn.1.status = s.status := by
  unfold State.settleOwn
  dsimp only
  repeat' (first | rfl | split)

@[simp] theorem State.settleOwn_cycleStarts (s : State) :
    s.settleOwn.1.cycleStarts = s.cycleStarts := by
  unfold State.settleOwn
  dsimp only
  repeat' (first | rfl | split)

@[simp] theorem State.settleOwn_pending (s : State) :
    s.settleOwn.1.pending = s.pending := by
  unfold State.settleOwn
  dsimp only
  repeat' (first | rfl | split)

@[simp] theorem State.settleOwn_own (s : State) :
    s.settleOwn.1.own = s.own := by
  unfold State.settleOwn
  dsimp only
  repeat' (first | rfl | split)

@[simp] theorem State.settleOwn_role (s : State) :
    s.settleOwn.1.role = s.role := by
  unfold State.settleOwn
  dsimp only
  repeat' (first | rfl | split)

@[simp] theorem State.settleOwn_laneCount (s : State) :
    s.settleOwn.1.laneCount = s.laneCount := by
  unfold State.settleOwn
  dsimp only
  repeat' (first | rfl | split)

@[simp] theorem State.settleOwn_delivery (s : State) :
    s.settleOwn.1.delivery = s.delivery := by
  unfold State.settleOwn
  dsimp only
  repeat' (first | rfl | split)

@[simp] theorem State.settleOwn_lanes_table (s : State) :
    s.settleOwn.1.lanes.table = s.lanes.table := by
  unfold State.settleOwn
  dsimp only
  repeat' (first | rfl | split)

@[simp] theorem State.settleOwn_lanes_slotCopy (s : State) :
    s.settleOwn.1.lanes.slotCopy = s.lanes.slotCopy := by
  unfold State.settleOwn
  dsimp only
  repeat' (first | rfl | split)

@[simp] theorem State.settleOwn_lanes_digest (s : State) :
    s.settleOwn.1.lanes.digest = s.lanes.digest := by
  unfold State.settleOwn
  dsimp only
  repeat' (first | rfl | split)

@[simp] theorem State.settleOwn_lanes_releasePending (s : State) :
    s.settleOwn.1.lanes.releasePending = s.lanes.releasePending := by
  unfold State.settleOwn
  dsimp only
  repeat' (first | rfl | split)

@[simp] theorem State.settleOwn_lanes_idleHold (s : State) :
    s.settleOwn.1.lanes.idleHold = s.lanes.idleHold := by
  unfold State.settleOwn
  dsimp only
  repeat' (first | rfl | split)

@[simp] theorem State.settleOwn_lanes_divergence (s : State) :
    s.settleOwn.1.lanes.divergence = s.lanes.divergence := by
  unfold State.settleOwn
  dsimp only
  repeat' (first | rfl | split)

@[simp] theorem State.settleOwn_lanes_closingCycle (s : State) :
    s.settleOwn.1.lanes.closingCycle = s.lanes.closingCycle := by
  unfold State.settleOwn
  dsimp only
  repeat' (first | rfl | split)

@[simp] theorem State.settleOwn_lanes_cutInCycle (s : State) :
    s.settleOwn.1.lanes.cutInCycle = s.lanes.cutInCycle := by
  unfold State.settleOwn
  dsimp only
  repeat' (first | rfl | split)

@[simp] theorem State.follow_inReset (s : State) :
    s.follow.1.inReset = s.inReset := by
  rfl

@[simp] theorem State.follow_capture (s : State) :
    s.follow.1.capture = s.capture := by
  rfl

@[simp] theorem State.follow_detector (s : State) :
    s.follow.1.detector = s.detector := by
  rfl

@[simp] theorem State.follow_line (s : State) :
    s.follow.1.line = s.line := by
  rfl

@[simp] theorem State.follow_beat (s : State) :
    s.follow.1.beat = s.beat := by
  rfl

@[simp] theorem State.follow_census (s : State) :
    s.follow.1.census = s.census := by
  rfl

@[simp] theorem State.follow_audio (s : State) :
    s.follow.1.audio = s.audio := by
  rfl

@[simp] theorem State.follow_mix (s : State) :
    s.follow.1.mix = s.mix := by
  rfl

@[simp] theorem State.follow_keys (s : State) :
    s.follow.1.keys = s.keys := by
  rfl

@[simp] theorem State.follow_status (s : State) :
    s.follow.1.status = s.status := by
  rfl

@[simp] theorem State.follow_cycleStarts (s : State) :
    s.follow.1.cycleStarts = s.cycleStarts := by
  rfl

@[simp] theorem State.follow_pending (s : State) :
    s.follow.1.pending = s.pending := by
  rfl

@[simp] theorem State.follow_own (s : State) :
    s.follow.1.own = s.own := by
  rfl

@[simp] theorem State.follow_role (s : State) :
    s.follow.1.role = s.role := by
  rfl

@[simp] theorem State.follow_laneCount (s : State) :
    s.follow.1.laneCount = s.laneCount := by
  rfl

@[simp] theorem State.follow_delivery (s : State) :
    s.follow.1.delivery = s.delivery := by
  rfl

@[simp] theorem State.follow_lanes_slotCopy (s : State) :
    s.follow.1.lanes.slotCopy = s.lanes.slotCopy := by
  rfl

@[simp] theorem State.follow_lanes_request (s : State) :
    s.follow.1.lanes.request = s.lanes.request := by
  rfl

@[simp] theorem State.follow_lanes_waitAge (s : State) :
    s.follow.1.lanes.waitAge = s.lanes.waitAge := by
  rfl

@[simp] theorem State.follow_lanes_releasePending (s : State) :
    s.follow.1.lanes.releasePending = s.lanes.releasePending := by
  rfl

@[simp] theorem State.follow_lanes_idleHold (s : State) :
    s.follow.1.lanes.idleHold = s.lanes.idleHold := by
  rfl

@[simp] theorem State.follow_lanes_laneCollisions (s : State) :
    s.follow.1.lanes.laneCollisions = s.lanes.laneCollisions := by
  rfl

@[simp] theorem State.follow_lanes_closingCycle (s : State) :
    s.follow.1.lanes.closingCycle = s.lanes.closingCycle := by
  rfl

@[simp] theorem State.follow_lanes_cutInCycle (s : State) :
    s.follow.1.lanes.cutInCycle = s.lanes.cutInCycle := by
  rfl

@[simp] theorem State.follow_table (s : State) :
    s.follow.1.lanes.table = followTable s.delivery s.winners s.lanes.table := by
  rfl

@[simp] theorem State.follow_digest (s : State) :
    s.follow.1.lanes.digest = s.follow.1.lanes.table.digest := by
  rfl

/-- The request is NONE once the owner-side decisions are settled, if it was or the table lists the own
address (R89). -/
theorem State.settleOwn_request (s : State) :
    s.settleOwn.1.lanes.request = .none ∨ s.settleOwn.1.lanes.request = s.lanes.request := by
  unfold State.settleOwn
  split
  · exact .inl rfl
  · exact .inr rfl

@[simp] theorem State.election_inReset (s : State) :
    s.election.1.inReset = s.inReset := by
  simp only [State.election, State.settleOwn_inReset, State.ownerSide_inReset]
  repeat' (first | rfl | exact State.cutOwnLane_inReset _ _ | split | simp)

@[simp] theorem State.election_capture (s : State) :
    s.election.1.capture = s.capture := by
  simp only [State.election, State.settleOwn_capture, State.ownerSide_capture]
  repeat' (first | rfl | exact State.cutOwnLane_capture _ _ | split | simp)

@[simp] theorem State.election_detector (s : State) :
    s.election.1.detector = s.detector := by
  simp only [State.election, State.settleOwn_detector, State.ownerSide_detector]
  repeat' (first | rfl | exact State.cutOwnLane_detector _ _ | split | simp)

@[simp] theorem State.election_beat (s : State) :
    s.election.1.beat = s.beat := by
  simp only [State.election, State.settleOwn_beat, State.ownerSide_beat]
  repeat' (first | rfl | exact State.cutOwnLane_beat _ _ | split | simp)

@[simp] theorem State.election_census (s : State) :
    s.election.1.census = s.census := by
  simp only [State.election, State.settleOwn_census, State.ownerSide_census]
  repeat' (first | rfl | exact State.cutOwnLane_census _ _ | split | simp)

@[simp] theorem State.election_mix (s : State) :
    s.election.1.mix = s.mix := by
  simp only [State.election, State.settleOwn_mix, State.ownerSide_mix]
  repeat' (first | rfl | exact State.cutOwnLane_mix _ _ | split | simp)

@[simp] theorem State.election_keys (s : State) :
    s.election.1.keys = s.keys := by
  simp only [State.election, State.settleOwn_keys, State.ownerSide_keys]
  repeat' (first | rfl | exact State.cutOwnLane_keys _ _ | split | simp)

@[simp] theorem State.election_status (s : State) :
    s.election.1.status = s.status := by
  simp only [State.election, State.settleOwn_status, State.ownerSide_status]
  repeat' (first | rfl | exact State.cutOwnLane_status _ _ | split | simp)

@[simp] theorem State.election_cycleStarts (s : State) :
    s.election.1.cycleStarts = s.cycleStarts := by
  simp only [State.election, State.settleOwn_cycleStarts, State.ownerSide_cycleStarts]
  repeat' (first | rfl | exact State.cutOwnLane_cycleStarts _ _ | split | simp)

@[simp] theorem State.election_pending (s : State) :
    s.election.1.pending = s.pending := by
  simp only [State.election, State.settleOwn_pending, State.ownerSide_pending]
  repeat' (first | rfl | exact State.cutOwnLane_pending _ _ | split | simp)

@[simp] theorem State.election_own (s : State) :
    s.election.1.own = s.own := by
  simp [State.own]

@[simp] theorem State.election_role (s : State) :
    s.election.1.role = s.role := by
  simp [State.role]

@[simp] theorem State.election_laneCount (s : State) :
    s.election.1.laneCount = s.laneCount := by
  simp [State.laneCount]

@[simp] theorem State.election_table (s : State) :
    s.election.1.lanes.table = (elect s.keys.straps.policy s.delivery (repairTable s.winners s.lanes.table
      (if lostToRepair s.winners s.lanes.table s.own then s.lanes.table.without s.own else s.lanes.table))).after7 := by
  simp only [State.election, State.settleOwn_lanes_table, State.ownerSide_lanes_table]
  split <;> (try simp) <;> split <;> simp [State.cutOwnLane_table]

@[simp] theorem State.election_digest (s : State) :
    s.election.1.lanes.digest = s.election.1.lanes.table.digest := by
  simp only [State.election, State.settleOwn_lanes_digest, State.ownerSide_lanes_digest,
    State.settleOwn_lanes_table, State.ownerSide_lanes_table]
  split <;> simp

@[simp] theorem State.election_slotCopy (s : State) :
    s.election.1.lanes.slotCopy = if lostToRepair s.winners s.lanes.table s.own then s.lanes.slotCopy.without s.own else s.lanes.slotCopy := by
  simp only [State.election, State.settleOwn_lanes_slotCopy, State.ownerSide_lanes_slotCopy]
  split <;> (try simp) <;> split <;> simp

/-- The election leaves the request, or ends it (R89). -/
theorem State.election_request (s : State) :
    s.election.1.lanes.request = .none ∨ s.election.1.lanes.request = s.lanes.request := by
  simp only [State.election]
  refine (State.settleOwn_request _).imp id fun h => h.trans ?_
  simp only [State.ownerSide_lanes_request]
  split <;> (try simp) <;> split <;> simp

/-- Entry into CONFLICT: the own lane is in neither table and no request stands (R106). -/
theorem State.conflictEntry_lanes (s : State) :
    s.conflictEntry.1.lanes.request = .none ∧
      s.conflictEntry.1.lanes.table = s.lanes.table.without s.own ∧
      s.conflictEntry.1.lanes.slotCopy = s.lanes.slotCopy.without s.own := by
  refine ⟨rfl, ?_, ?_⟩
  · exact s.cutOwnLane_table .conflict
  · exact s.cutOwnLane_slotCopy .conflict

@[simp] theorem State.conflictEntry_inReset (s : State) :
    s.conflictEntry.1.inReset = s.inReset := by
  exact s.cutOwnLane_inReset .conflict

@[simp] theorem State.conflictEntry_capture (s : State) :
    s.conflictEntry.1.capture = s.capture := by
  exact s.cutOwnLane_capture .conflict

@[simp] theorem State.conflictEntry_detector (s : State) :
    s.conflictEntry.1.detector = s.detector := by
  exact s.cutOwnLane_detector .conflict

@[simp] theorem State.conflictEntry_beat (s : State) :
    s.conflictEntry.1.beat = s.beat := by
  exact s.cutOwnLane_beat .conflict

@[simp] theorem State.conflictEntry_census (s : State) :
    s.conflictEntry.1.census = s.census := by
  exact s.cutOwnLane_census .conflict

@[simp] theorem State.conflictEntry_mix (s : State) :
    s.conflictEntry.1.mix = s.mix := by
  exact s.cutOwnLane_mix .conflict

@[simp] theorem State.conflictEntry_keys (s : State) :
    s.conflictEntry.1.keys = s.keys := by
  exact s.cutOwnLane_keys .conflict

@[simp] theorem State.conflictEntry_status (s : State) :
    s.conflictEntry.1.status = s.status := by
  exact s.cutOwnLane_status .conflict

@[simp] theorem State.conflictEntry_cycleStarts (s : State) :
    s.conflictEntry.1.cycleStarts = s.cycleStarts := by
  exact s.cutOwnLane_cycleStarts .conflict

@[simp] theorem State.conflictEntry_pending (s : State) :
    s.conflictEntry.1.pending = s.pending := by
  exact s.cutOwnLane_pending .conflict

@[simp] theorem State.conflictEntry_own (s : State) :
    s.conflictEntry.1.own = s.own := by
  exact s.cutOwnLane_own .conflict

@[simp] theorem State.conflictEntry_role (s : State) :
    s.conflictEntry.1.role = s.role := by
  exact s.cutOwnLane_role .conflict

@[simp] theorem State.conflictEntry_laneCount (s : State) :
    s.conflictEntry.1.laneCount = s.laneCount := by
  exact s.cutOwnLane_laneCount .conflict

@[simp] theorem State.conflictEntry_delivery (s : State) :
    s.conflictEntry.1.delivery = s.delivery := by
  exact s.cutOwnLane_delivery .conflict

@[simp] theorem State.lanesAtCensus_inReset (c : Bool) (s : State) :
    (s.lanesAtCensus c).1.inReset = s.inReset := by
  unfold State.lanesAtCensus
  split <;> (try split) <;> simp

@[simp] theorem State.lanesAtCensus_capture (c : Bool) (s : State) :
    (s.lanesAtCensus c).1.capture = s.capture := by
  unfold State.lanesAtCensus
  split <;> (try split) <;> simp

@[simp] theorem State.lanesAtCensus_detector (c : Bool) (s : State) :
    (s.lanesAtCensus c).1.detector = s.detector := by
  unfold State.lanesAtCensus
  split <;> (try split) <;> simp

@[simp] theorem State.lanesAtCensus_beat (c : Bool) (s : State) :
    (s.lanesAtCensus c).1.beat = s.beat := by
  unfold State.lanesAtCensus
  split <;> (try split) <;> simp

@[simp] theorem State.lanesAtCensus_census (c : Bool) (s : State) :
    (s.lanesAtCensus c).1.census = s.census := by
  unfold State.lanesAtCensus
  split <;> (try split) <;> simp

@[simp] theorem State.lanesAtCensus_mix (c : Bool) (s : State) :
    (s.lanesAtCensus c).1.mix = s.mix := by
  unfold State.lanesAtCensus
  split <;> (try split) <;> simp

@[simp] theorem State.lanesAtCensus_keys (c : Bool) (s : State) :
    (s.lanesAtCensus c).1.keys = s.keys := by
  unfold State.lanesAtCensus
  split <;> (try split) <;> simp

@[simp] theorem State.lanesAtCensus_status (c : Bool) (s : State) :
    (s.lanesAtCensus c).1.status = s.status := by
  unfold State.lanesAtCensus
  split <;> (try split) <;> simp

@[simp] theorem State.lanesAtCensus_cycleStarts (c : Bool) (s : State) :
    (s.lanesAtCensus c).1.cycleStarts = s.cycleStarts := by
  unfold State.lanesAtCensus
  split <;> (try split) <;> simp

@[simp] theorem State.lanesAtCensus_pending (c : Bool) (s : State) :
    (s.lanesAtCensus c).1.pending = s.pending := by
  unfold State.lanesAtCensus
  split <;> (try split) <;> simp

@[simp] theorem State.lanesAtCensus_own (c : Bool) (s : State) :
    (s.lanesAtCensus c).1.own = s.own := by
  simp [State.own]

@[simp] theorem State.lanesAtCensus_role (c : Bool) (s : State) :
    (s.lanesAtCensus c).1.role = s.role := by
  simp [State.role]

@[simp] theorem State.lanesAtCensus_laneCount (c : Bool) (s : State) :
    (s.lanesAtCensus c).1.laneCount = s.laneCount := by
  simp [State.laneCount]

/-! ## The whole event -/

/-- The state after the census close of a receiving state without its records. -/
def State.afterCensusClose (s : State) : State :=
  let conflict := (ownSlotCollisions s.beat.sync s.census.readback s.census.ownCollisions).2
  (((s.closeCensus.beatAtCensus conflict).1.lanesAtCensus conflict).1.rejoinIfDiverged).1

/-- A census close is that state, with some records handed to the status port. -/
theorem State.censusClose_spec (s : State) : ∃ bs, s.censusClose = s.afterCensusClose.raise bs :=
  ⟨_, rfl⟩

/-- The rejoin on divergence, or nothing (R122). -/
theorem State.rejoinIfDiverged_cases (s : State) :
    (4 ≤ s.lanes.divergence ∧ s.rejoinIfDiverged = s.rejoin .diverged) ∨
      (s.lanes.divergence < 4 ∧ s.rejoinIfDiverged = (s, [])) := by
  unfold State.rejoinIfDiverged
  split
  · exact .inl ⟨by assumption, rfl⟩
  · exact .inr ⟨by omega, rfl⟩

end Sys2Proof.Machine
end

