-- ==== Sys2Proof/Laws/Mix.lean ====
section
/-! SUPPORT. What the mix unit can do: when a sample is formed, and how a formation ends. -/

namespace Sys2Proof.Machine

/-- A sample is formed from the instant on at which the samples up to it have taken their times, or from 64
bit times after the completion of the set (R140). -/
theorem Formation.formed_iff (later : Nat) (k : Fin 64) (f : Formation) :
    f.formed later k = true ↔ 64 ≤ f.age + later ∨
      ∑ j ∈ Finset.range (k.val + 1), Config.formingTime f.number j ≤ f.age + later := by
  have h : ((List.range (k.val + 1)).map (Config.formingTime f.number)).sum =
      ∑ j ∈ Finset.range (k.val + 1), Config.formingTime f.number j := rfl
  rw [Formation.formed, Bool.or_eq_true, decide_eq_true_iff, decide_eq_true_iff, h]
  exact Iff.rfl

/-- What is formed later is so once the time has passed. -/
theorem Formation.formed_elapse (n later : Nat) (k : Fin 64) (f : Formation) :
    (f.elapse n).formed later k = f.formed (n + later) k := by
  simp only [Formation.formed, Formation.elapse, Nat.add_assoc]

/-- The end of a formation takes the first of the sets being formed, and writes the buffer it is formed into,
if it still plays or is the next one (R139, R143). -/
theorem Mix.endFormation_spec (m : Mix) :
    (m.endFormation.2 =
      (m.formingLeft ++ (m.formingPlaying.toList ++ m.formingNext.toList).map (·.set)).head?) ∧
    (m.formingLeft ≠ [] → m.endFormation.1 = { m with formingLeft := m.formingLeft.tail }) ∧
    (∀ f, m.formingLeft = [] → m.formingPlaying = some f →
      m.endFormation.1 = { m with playing := formMix f.set, formingPlaying := none }) ∧
    (∀ f, m.formingLeft = [] → m.formingPlaying = none → m.formingNext = some f →
      m.endFormation.1 = { m with next := formMix f.set, nextStatus := .formed, formingNext := none }) ∧
    (m.formingLeft = [] → m.formingPlaying = none → m.formingNext = none → m.endFormation.1 = m) := by
  unfold Mix.endFormation
  rcases hl : m.formingLeft with _ | ⟨set, left⟩ <;> rcases hp : m.formingPlaying with _ | f <;>
    rcases hn : m.formingNext with _ | g <;> simp

end Sys2Proof.Machine
end

