-- ==== Sys2Proof/WellFormed.lean ====
section
/-! DEFINITION. Which commands the outside world can send: the operands that the spec's own sizes
bound. Every other operand is bounded by its type. `exec` does not depend on these checks. -/

namespace Sys2Proof

/-- The readings for one slot: a span of `span` bit times, and a frame of `frame` bits whose start edge
lies in the acceptance window of 16 bit times and that is read to its end (R34, R37). -/
def SlotRx.wf (span frame : Nat) (rx : SlotRx) : Bool :=
  decide (rx.readings.length ≤ max span (16 + frame))

/-- A slot's readings end with its span or with the frame in it. -/
def Instr.wf : Instr → Bool
  | .beatReadbackOutcome _ _ => true
  | .reportReadbackOutcome _ => true
  | .laneReadbackOutcome _ => true
  | .reportSlotDelivered _ rx => rx.wf 96 83
  | .laneSlotDelivered _ rx => rx.wf 1088 1064
  | .hardwareReset => true
  | .resetRelease _ _ => true
  | .outputInstant _ => true
  | .cycleTimerExpiry _ => true
  | .coldStartExpiry => true
  | .beatWaitOpen => true
  | .holderBeatRequest => true
  | .takerDecision => true
  | .takerBeatStart => true
  | .deferredBeatStart => true
  | .goodBeatDelivered _ _ => true
  | .beatCandidateDropped _ => true
  | .beatHorizon _ => true
  | .detectorPublication => true
  | .ownReportSlotStart => true
  | .laneSlotStart _ => true
  | .mixFormationEnd => true
  | .outputFrameStart _ => true
  | .censusClose => true
  | .statusTransmissionStart => true
  | .pdmDataSample _ => true
  | .beatCandidateFound _ _ => true
  | .recordLastStopBit => true

end Sys2Proof
end

