-- ==== Sys2Proof/Tests/Slice0.lean ====
section
/-! SUPPORT. Tests: ill-formed commands, one step of each command against the spec's tables and examples,
and for every statement with hypotheses a state and operands that meet them. -/

namespace Sys2Proof.Tests

-- One theorem at a time: many kernel evaluations at once ask for more threads than there are.
set_option Elab.async false

open Sys2Proof.Machine

/-! ## Helpers -/

/-- The state that a command leaves. -/
def after (c : Instr) (s : State) : State :=
  match exec c s with
  | .next t => t
  | .fault _ => s
  | .refused _ => s

/-- Both keys released. -/
def up : KeyPins := { keyA := true, keyB := true }

/-- Address 3, AUTO, M = 4, FIRST_ON, SENS 1, HANG 0, GAIN 2. -/
def pins : StrapPins :=
  { addr := 3, role := 0, lanes := 3, policy := false, lastOn := false, sens := 1, hang := 0, gain := 2 }

/-- That node right after reset release. -/
def base : State := after (.resetRelease pins up) State.reset

/-- That node in a sync state. -/
def inSync (x : SyncState) : State := { base.setSync x with pending := [] }

/-- That node with another role. -/
def withRole (r : Role) (s : State) : State :=
  { s with keys := { s.keys with straps := { s.keys.straps with role := r } } }

/-- A node at position `n` of the running cycle. -/
def at' (n : Nat) (s : State) : State := { s with beat := { s.beat with timer := n } }

/-- A node that reads a candidate whose start edge lies `age` bit times back. -/
def reading (age : Nat) (s : State) : State := { s with line := { s.line with candidate := some age } }

/-- A node whose beat wait is open. -/
def waiting (s : State) : State := { s with beat := { s.beat with waitOpen := true } }

/-- A node that is sending a beat. -/
def sendingBeat (k : BeatKind) (c : BitVec 16) (age : Nat) (s : State) : State :=
  { s with beat := { s.beat with request := .sending k c age } }

/-- A node with these lane table and slot copy. -/
def withLanes (t copy : LaneTable) (s : State) : State :=
  { s with lanes := { s.lanes with table := t, slotCopy := copy, digest := t.digest } }

/-- A node with these reports in its census record. -/
def withEntries (e : CensusEntries) (s : State) : State :=
  { s with census := { s.census with entries := e } }

/-- A plain report of address `a` with the fingerprint of `base`. -/
def report (a : Addr) : Report :=
  { src := a, role := .auto, holder := false, candidate := false, detector := .silent, score := 0
    request := .none, age := 0, held := none, closing := false, idle := false, muted := false
    muteAll := false, fingerprint := 0x2C, digest := 0 }

/-- 64 equal samples. -/
def flat (x : Sample) : Frame := Vector.replicate 64 x

/-- A word of 32 bits that holds a beat of cycle `c`. -/
def beatWord (c : BitVec 16) : BitVec 32 := BitVec.ofNat 32 (bitsNat (encodeBeat c))

/-- The word whose bits, first bit most significant, are `bits`. -/
def wordOf (w : Nat) (bits : List Bool) : BitVec w := BitVec.ofNat w (bitsNat bits)

/-- A slot in which `bits` begin at position `e`, after a quiet line. -/
def slotRx (e : Nat) (bits : List Bool) : SlotRx :=
  { before := 8, readings := List.replicate e true ++ bits }

/-- A slot in which nothing is read. -/
def quiet : SlotRx := { before := 0, readings := [] }

/-! ## Well-formedness -/

theorem test_wf_report_readings_too_long :
    (Instr.reportSlotDelivered 2 { before := 4, readings := List.replicate 100 true }).wf = false := by
  decide +kernel

theorem test_wf_lane_readings_too_long :
    (Instr.laneSlotDelivered 1 { before := 4, readings := List.replicate 1089 true }).wf = false := by
  decide +kernel

theorem test_wf_boundary_accepted :
    (Instr.reportSlotDelivered 2 { before := 4, readings := List.replicate 99 true }).wf = true ∧
      (Instr.laneSlotDelivered 1 { before := 4, readings := List.replicate 1088 true }).wf = true := by
  decide +kernel

/-! ## Reset -/

/-- Protocol revision 2, M = 4, FIRST_ON without LASTON: 0010 11 0 0 (Table 12-5). -/
theorem test_release_fingerprint : base.keys.fingerprint = 0x2C := by decide +kernel

/-- 36864 + 3072 × 3 (R52). -/
theorem test_release_cold_start : base.beat.coldStart = some 46080 := by decide +kernel

theorem test_hardware_reset_keeps_nothing :
    (after .hardwareReset (waiting (inSync .locked))).beat = Beat.reset := by decide +kernel

/-- Two lanes, FIRST_ON, no LASTON: 24h (the note of 12.5). -/
theorem test_fingerprint_note :
    ({ Straps.unsampled with lanes := 1 } : Straps).makeFingerprint = 0x24 := by decide

/-! ## Capture -/

theorem test_pdm_transition : (after (.pdmDataSample true) base).capture.transition = true := by
  decide +kernel

theorem test_output_instant_time : (after (.outputInstant 62) base).beat.timer = 12096 := by
  decide +kernel

/-- Of 64 detector reads, the write before them, 65 opportunities: one is left after 16 bit times. -/
theorem test_arbiter :
    let a := (Arbiter.reset.raiseDetector true 2).raiseWrite
    (a.elapse 16).reads.map (·.position) = [63] ∧ (a.elapse 17).reads = [] ∧ a.detectorWait = 17 := by
  decide +kernel

/-- Frame 203 of the example of 1.7: the second STUCK frame declares the fault. -/
theorem test_mic_fault :
    (({ Capture.reset with stuckCount := 1 } : Capture).updateMic .stuck).mic = .fault := by decide

/-- Frame 209 of that example: the fourth VALID frame recovers. -/
theorem test_mic_recovers :
    (({ Capture.reset with mic := .fault, goodCount := 3 } : Capture).updateMic .valid).mic = .ok := by
  decide

/-! ## Detector -/

/-- Full scale is 255 and a mean square of 1 is 20 × log10 of 2^-30 below it (R19). -/
theorem test_level : level (flat 1) = 74 ∧ level (flat 0x8000) = 255 ∧ level silence = 0 := by
  decide +kernel

/-- Frame 101 of the example of 2.5: state, hangover, and history Q Q – make SPEECH. -/
theorem test_detector_frame_101 :
    qualifies (thresholds 1) .valid 19 19 = true ∧ nextDetState .onset 0 25 true true false =
      (.speech, 0) ∧ nextScore .speech 19 28 = 26 ∧ noiseUpdate 149 130 7 .onset = (130, 0) := by
  decide

/-- Frames 502 and 504 of the second example. -/
theorem test_detector_knock :
    noiseUpdate 131 138 0 .onset = (134, 0) ∧ noiseUpdate 133 133 0 .silent = (133, 1) ∧
      nextDetState .onset 0 25 false false true = (.silent, 0) := by decide

/-! ## Formats -/

/-- The beat of cycle 1: pattern, number, and CRC-8 of 0001h, which is 07h (one bit: the generator). -/
theorem test_beat_bits :
    encodeBeat 1 = [false, false, false, true, true, true, false, true,
      false, false, false, false, false, false, false, false,
      false, false, false, false, false, false, false, true,
      false, false, false, false, false, true, true, true] := by decide +kernel

/-- The PEER record of 12.6. -/
theorem test_peer_record :
    (Record.bytes { cycle := 616, body := .peer 7 .present } false) =
      [0xA6#8, 0x03#8, 0x00#8, 0x02#8, 0x68#8, 0x07#8, 0x02#8, 0xE4#8] := by decide +kernel

/-! ## Line and beats -/

theorem test_candidate_found :
    (after (.beatCandidateFound 100 4) base).line.candidate = some 0 := by decide +kernel

/-- Three recessive readings are no start edge, nor is a fourth that came before the release of reset. -/
theorem test_candidate_needs_four_recessive :
    (after (.beatCandidateFound 100 3) base).line.candidate = none ∧
      (after (.beatCandidateFound 3 9) base).line.candidate = none ∧
      (after (.beatCandidateFound 4 9) base).line.candidate = some 0 := by decide +kernel

theorem test_candidate_dropped_after_eight :
    (after (.beatCandidateDropped 0xFFFFFFFF) (reading 0 base)).beat.timer = 8 := by decide +kernel

theorem test_good_beat_in_listen :
    (after (.goodBeatDelivered (beatWord 1000) up) (reading 0 base)).beat.sync = .aligning ∧
      (after (.goodBeatDelivered (beatWord 1000) up) (reading 0 base)).beat.cycle = 1000 ∧
      (after (.goodBeatDelivered (beatWord 1000) up) (reading 0 base)).beat.timer = 32 := by
  decide +kernel

theorem test_cycle_timer_expiry :
    (after (.cycleTimerExpiry up) base).beat.cycle = 1 ∧
      (after (.cycleTimerExpiry up) base).beat.timer = 0 := by decide +kernel

theorem test_cold_start_sends :
    (after .coldStartExpiry base).beat.request = .sending .founding 0 0 := by decide +kernel

theorem test_beat_wait_opens :
    (after .beatWaitOpen (inSync .aligning)).beat.waitOpen = true ∧
      (after .beatWaitOpen base).beat.waitOpen = false := by decide +kernel

/-- A LOCKED node that is holder, in cycle 0. -/
def holder : State :=
  let s := inSync .locked
  { s with beat := { s.beat with holder := some 3 } }

theorem test_holder_sends :
    (after .holderBeatRequest holder).beat.request = .sending .holder 1 0 := by decide +kernel

/-- Node 7 of the example of 4.10 has rank 1: its instant is E + 48. -/
def taker : State :=
  let s := waiting (inSync .locked)
  { s with beat := { s.beat with holder := some 2, rank := some 1 } }

theorem test_taker_instant : (after .takerDecision taker).beat.takerAt = some 12336 := by
  decide +kernel

theorem test_taker_sends :
    (after .takerBeatStart (after .takerDecision taker)).beat.request = .sending .taker 1 0 := by
  decide +kernel

/-- Node 7 of that example reads a candidate at its instant: it waits, and sends when it was dropped. -/
theorem test_taker_waits :
    (after .takerBeatStart (reading 5 (after .takerDecision taker))).beat.request = .waiting .taker ∧
      (after .deferredBeatStart { taker with
        beat := { taker.beat with request := .waiting .taker } }).beat.request = .sending .taker 1 0 := by
  decide +kernel

theorem test_clean_founding_locks :
    (after (.beatReadbackOutcome (beatWord 0) up) (after .coldStartExpiry base)).beat.sync = .locked := by
  decide +kernel

theorem test_colliding_holder_is_barred :
    (after (.beatReadbackOutcome (BitVec.allOnes 32) up) (after .holderBeatRequest holder)).beat.barred = 250 := by
  decide +kernel

theorem test_first_beat_failure :
    (after (.beatHorizon up) (waiting (inSync .locked))).beat.failures = 1 ∧
      (after (.beatHorizon up) (waiting (inSync .locked))).beat.cycle = 1 := by decide +kernel

/-- A LOCKED node after two beat failures. -/
def failing (x : SyncState) : State :=
  let s := waiting (inSync x)
  { s with beat := { s.beat with failures := 2 } }

theorem test_third_beat_failure :
    (after (.beatHorizon up) (failing .locked)).beat.sync = .listen ∧
      (after (.beatHorizon up) (failing .locked)).beat.coldStart = some 46080 := by decide +kernel

/-! ## Reports and census -/

theorem test_own_report :
    (after .ownReportSlotStart (inSync .locked)).line.tx.map (·.kind) = some .report ∧
      (after .ownReportSlotStart (inSync .observing)).line.tx = none := by decide +kernel

theorem test_report_readback :
    (after (.reportReadbackOutcome (BitVec.allOnes 83)) (after .ownReportSlotStart (inSync .locked))).census.readback =
      some .collision := by decide +kernel

/-- A LOCKED node right after a cycle start. -/
def cycling (x : SyncState) : State :=
  after (.beatHorizon up) (waiting (inSync x))

theorem test_good_report_entered :
    (after (.reportSlotDelivered 7 (slotRx 8 (encodeReport (report 7)))) (cycling .locked)).census.entries[7] =
      some (report 7) := by decide +kernel

theorem test_report_in_wrong_slot :
    (after (.reportSlotDelivered 6 (slotRx 8 (encodeReport (report 7)))) (cycling .locked)).census.entries[6] =
      none := by decide +kernel

/-- Table 3-3: three recessive readings before the edge, or the end of the last reception three bit times
before it, make it no start edge (R36, R37). -/
theorem test_slot_edge :
    slotEdge { before := 3, readings := encodeReport (report 7) } 728 0 96 ≠ some 0 ∧
      slotEdge { before := 4, readings := encodeReport (report 7) } 728 0 96 = some 0 ∧
      slotEdge (slotRx 6 [false]) 728 731 96 = none ∧ slotEdge (slotRx 7 [false]) 728 731 96 = some 7 := by
  decide +kernel

/-- Census closes 613 to 616 and 619 of the example of 5.6. -/
theorem test_presence_example :
    PeerEntry.absent.update 0x2C (some (report 7)) = { presence := .arriving, good := 1, miss := 0 } ∧
      (PeerEntry.update 0x2C none { presence := .present, good := 2, miss := 0 }) =
        { presence := .missing, good := 2, miss := 1 } ∧
      (PeerEntry.update 0x24 (some (report 7)) { presence := .missing, good := 2, miss := 2 }) =
        { presence := .foreign, good := 0, miss := 0 } := by decide

theorem test_census_close_marks_arriving :
    (after .censusClose (withEntries (put (Vector.replicate 16 none) 7 (some (report 7)))
      (inSync .locked))).census.peers[7].presence = .arriving := by decide +kernel

/-! ## Lanes -/

/-- A claim of node 9 as in the example of 6.12. -/
def claim9 (score : Nat) : Claim := { addr := 9, priority := false, wait := 1, score := score }

/-- Census closes 900 and 901 of that example. -/
theorem test_preemption_example :
    chooseVictim .loudest (claim9 30)
      #v[.held 4 .auto 30 20 false, .held 6 .auto 12 34 false, .free, .free] = none ∧
    chooseVictim .loudest (claim9 31)
      #v[.held 4 .auto 31 18 false, .held 6 .auto 13 32 false, .free, .free] = some 0 ∧
    chooseVictim .firstOn (claim9 31)
      #v[.held 4 .auto 31 18 false, .held 6 .auto 13 32 false, .free, .free] = none := by
  decide +kernel

/-- Census close 703 of the example of 6.11: node 8 has waited longer than the louder node 3. -/
theorem test_claim_order_example :
    claimBefore { addr := 8, priority := false, wait := 3, score := 22 }
      { addr := 3, priority := false, wait := 1, score := 35 } = true := by decide

/-- A LOCKED node that owns lane 2 in table and slot copy, HELD. -/
def owner : State :=
  withLanes #v[.free, .free, .held 3 .auto 5 20 false, .free]
    #v[.free, .free, .held 3 .auto 5 20 false, .free] (inSync .locked)

theorem test_lane_slot_sends :
    (after (.laneSlotStart 2) owner).line.tx.map (·.kind) = some .lane ∧
      (after (.laneSlotStart 1) owner).line.tx = none := by decide +kernel

/-- That node while it sends, after one lane-slot collision. -/
def colliding (n : Nat) : State :=
  let s := after (.laneSlotStart 2) owner
  { s with lanes := { s.lanes with laneCollisions := n } }

/-- A frame that reads back another bit at once drives that bit alone, then the line is recessive (R44). -/
theorem test_lane_yields :
    (after (.laneReadbackOutcome (BitVec.allOnes 1064)) (colliding 0)).beat.timer = 3777 ∧
      (after (.laneReadbackOutcome (BitVec.allOnes 1064)) (colliding 0)).line.tx = none := by
  decide +kernel

theorem test_second_lane_collision :
    (after (.laneReadbackOutcome (BitVec.allOnes 1064)) (colliding 1)).lanes.table[2] = .free ∧
      (after (.laneReadbackOutcome (BitVec.allOnes 1064)) (colliding 0)).lanes.laneCollisions = 1 := by decide +kernel

/-- A lane frame of node 5 in lane 0 for cycle 103 (example of 8.7). -/
def frame103 : LaneFrame :=
  { src := 5, lane := 0, marker := .first, sequence := 100, samples := flat 7 }

/-- A node that receives lane 0 in cycle 103, GRANTED to node 5. -/
def hearing : State :=
  let s := withLanes LaneTable.allFree #v[.granted 5 .auto 0 false, .free, .free, .free] (inSync .locked)
  { s with
    beat := { s.beat with cycle := 103 }
    line := { s.line with laneSpans := Vector.replicate 4 true } }

theorem test_lane_acceptance_order :
    acceptLane frame103 0 hearing.lanes.slotCopy[0] 103 = .accepted ∧
      acceptLane frame103 0 hearing.lanes.slotCopy[1] 103 = .rejectedUnlisted ∧
      acceptLane frame103 0 hearing.lanes.slotCopy[0] 104 = .rejectedCorrupt := by decide +kernel

/-- Cycle 103 of the example: FIRST after a change of owner rises, and the next miss conceals. -/
theorem test_lane_judged :
    ((LaneRx.reset.judge (.granted 5 .auto 0 false) 3 (some frame103)).contribution.map (·.ramp)) =
      some .rising ∧
    ((LaneRx.reset.judge (.granted 5 .auto 0 false) 3 (some frame103)).judge
      (.held 5 .auto 1 0 false) 3 none).state = .concealed := by decide +kernel

/-! ## Mix and output -/

/-- A cut in the first bit time of the own frame leaves bit 0 driven, and the line released after it (R86). -/
theorem test_cut_drives_its_bit :
    ((after (.laneSlotStart 2) owner).cutOwnLane .conflict).1.line.tx.map (·.bits) = some [false] ∧
      ((after (.laneSlotStart 2) owner).cutOwnLane .conflict).1.lineDominant = true ∧
      (((after (.laneSlotStart 2) owner).cutOwnLane .conflict).1.elapse 1).lineDominant = false := by
  decide +kernel

/-- The set of the example of 9.2. -/
def mixSet : ContributionSet :=
  #v[{ samples := flat 12000, ramp := .unity, isOpen := true, own := false },
     { samples := flat 8000, ramp := .rising, isOpen := true, own := true },
     { samples := flat (BitVec.ofInt 16 (-4000)), ramp := .falling, isOpen := true, own := false },
     Contribution.zero]

theorem test_mix_example :
    (formMix mixSet).left[0] = 4691 ∧ (formMix mixSet).right[0] = 4619 ∧
      (formMix mixSet).left[63] = 11511 ∧ (formMix mixSet).right[63] = 6892 := by decide +kernel

/-- The mix of a set that has just completed. -/
def formation (set : ContributionSet) : Formation := { set := set, number := 1, age := 0 }

/-- A node that forms that set into its next buffer. -/
def forming : State :=
  { base with mix := { base.mix with nextStatus := .forming, formingNext := some (formation mixSet) } }

theorem test_mix_formed : (after .mixFormationEnd forming).mix.nextStatus = .formed := by decide +kernel

/-- The right slot takes its sample as it starts, 96 bit times after the left one (R140). -/
theorem test_output_right_slot :
    let s := after (.outputFrameStart 0)
      { base with mix := { base.mix with formingPlaying := some (formation mixSet) } }
    (s.elapse 95).mix.frame.bind (·.right) = none ∧ (s.elapse 96).mix.frame.bind (·.right) = some 4619 := by
  decide +kernel

/-- A set that completed 64 bit times before the cycle start has its sample 0 in frame 0 (R140). -/
theorem test_frame_0_of_an_earlier_set :
    let s := forming.elapse 64
    (after (.outputFrameStart 0) { s with mix := s.mix.cycleStart false }).mix.frame.map (·.left) =
      some 4691 := by decide +kernel

theorem test_output_frame_on_falling_edge :
    (after (.outputFrameStart 1) { base with mix := { base.mix with oclk := 4 } }).mix.refAge = 194 := by
  decide +kernel

/-! ## Keys and status port -/

/-- The bouncing press of 10.2, cycle starts 300 to 306. -/
theorem test_bouncing_press :
    ([true, false, true, true, true, true, true].foldl (fun k b => Key.sample b k) Key.released) =
      { pressed := true, count := 0 } := by decide

/-- The full queue of 11.8: a record without a match is lost, one with a match coalesces. -/
theorem test_full_queue :
    let p : StatusPort := { StatusPort.reset with
      queue := (List.finRange 16).map fun a => { cycle := 0, body := .peer a .arriving } }
    (p.push { cycle := 1, body := .repair 1 none 2 }).overrun = true ∧
      ((p.push { cycle := 1, body := .peer 7 .present }).queue.map (·.body))[7]? =
        some (.peer 7 .present) := by decide +kernel

/-- STARTED begins ten bit periods after reset release, at crystal period 1067 (R168). -/
theorem test_status_starts :
    (after .statusTransmissionStart base).status.queue = [] ∧
      (after .statusTransmissionStart base).status.bitClock = 1064 ∧
      (after .statusTransmissionStart base).status.tx.map (·.startBit) = some 10 := by decide +kernel

/-- Its ten bytes end after 100 bit periods more. -/
theorem test_status_ends :
    (after .recordLastStopBit (after .statusTransmissionStart base)).status.tx = none ∧
      (after .recordLastStopBit (after .statusTransmissionStart base)).status.nextFree = 110 := by
  decide +kernel

/-! ## Witnesses: steps, reset, capture -/

theorem witness_EmptyQueueLetsOneBitTimePass :
    (State.reset.pending = [] ∧ State.reset.inReset = true) ∧
      (base.pending = [] ∧ base.inReset = false) := by decide +kernel

/-- Under reset, after it, with a dominant and a recessive bit on the line, and released. -/
theorem witness_IndicatorsAndPinsFollowTheState :
    (State.reset.inReset = true ∧ base.inReset = false ∧ base.line.tx = none) ∧
    ((after .coldStartExpiry base).line.tx.bind fun x => x.bits[x.sent]?) = some false ∧
    (((after .coldStartExpiry base).elapse 3).line.tx.bind fun x => x.bits[x.sent]?) = some true ∧
    (owner.inReset = false ∧ owner.linkLit = true ∧ owner.gateLit = true ∧ owner.waitLit = false ∧
      owner.muteLit = false ∧ owner.faultLit = false ∧ base.linkLit = false) ∧
    ((inSync .conflict).faultLit = true ∧ (inSync .aligning).linkLit = (inSync .aligning).keys.linkPhase) := by
  decide +kernel

theorem witness_ResetReleaseStartsTheNode : State.reset.inReset = true ∧ State.reset.HeldInReset :=
  ⟨rfl, fun _ => rfl⟩

/-- The output instants of a node whose cycles are all set by beats fixed 32 bit times late (R2, R48). -/
theorem test_gaps_of_a_locked_node :
    GapsOfInstants fun i => if i % 64 = 0 then 224 else if i % 64 = 63 then 160 else 192 := by
  refine ⟨fun i => decide (i % 64 = 0), fun i => ?_⟩
  by_cases h : i % 64 = 0
  · simp only [h, decide_true, if_true]
    refine Or.inr ⟨by omega, fun j _ _ => decide_eq_false (by omega)⟩
  · by_cases h' : i % 64 = 63
    · have : (i + 1) % 64 = 0 := by omega
      simp [h', this]
    · have : ¬ (i + 1) % 64 = 0 := by omega
      simp [h, h', this]

theorem witness_SamplesReachTheFillingSlot :
    (State.reset.inReset = true ∧ (withRole .listen base).role = .listen) ∧
      (base.inReset = false ∧ base.role ≠ .listen) ∧ (withRole .listen base).inReset = false := by
  decide +kernel

/-- A capture unit within a run of frames. -/
def running (m : MicState) (stuck good : Nat) (transition : Bool) : Capture :=
  { Capture.reset with
    firstFrame := false, transition := transition, mic := m, stuckCount := stuck, goodCount := good }

/-- The jump of R8 begins at 65 bit times, to either side. -/
theorem witness_FrameCompletionJudgesAndAges :
    (∃ x : Int, some (65 : Int) = some x ∧ (64 < x ∨ x < -64)) ∧
    (∃ x : Int, some (-65 : Int) = some x ∧ (64 < x ∨ x < -64)) ∧
    (¬ ∃ x : Int, some (64 : Int) = some x ∧ (64 < x ∨ x < -64)) ∧
    (¬ ∃ x : Int, some (-64 : Int) = some x ∧ (64 < x ∨ x < -64)) ∧
    ((running .ok 0 0 true).complete base.keys.straps (some 65)).2.validity = .cut ∧
    ((running .ok 0 0 true).complete base.keys.straps (some 64)).2.validity = .valid ∧
    ((running .ok 0 0 false).complete base.keys.straps (some (-64))).2.validity = .stuck ∧
    (Capture.reset.complete base.keys.straps none).2.validity = .cut ∧
    ((running .ok 0 0 true).complete (withRole .listen base).keys.straps none).2.validity = .stuck ∧
    (base.keys.straps.role ≠ .listen ∧ Detector.reset.processing = none ∧
      (Detector.reset.start Capture.reset .ok).processing ≠ none) := by
  refine ⟨by simp, by simp, by simp, by simp, ?_⟩
  decide +kernel

/-- An arbiter with a read of the transmitter, raised at the start of its slot. -/
theorem witness_ArbiterGrantsWithinTheBounds :
    let a := Arbiter.reset.raiseTransmitter true 1
    let d := a.raiseDetector true 2
    (∀ r ∈ a.reads, r.reader = .transmitter) ∧ a.reads ≠ [] ∧
      (∀ r ∈ d.reads, r.reader = .detector → r.due ≤ 0) ∧
      (d.reads.filter fun r => r.reader = .detector).length = 64 := by decide +kernel

theorem witness_MicrophoneStateFollowsTable :
    (base.keys.straps.role ≠ .listen ∧ (withRole .listen base).keys.straps.role = .listen) ∧
    (∀ n : Fin 2, ((running .ok n.val 0 false).complete base.keys.straps none).2.validity = .stuck) ∧
    ((running .ok 1 0 true).complete base.keys.straps none).2.validity = .valid ∧
    ((running .ok 1 0 true).complete base.keys.straps (some 65)).2.validity = .cut ∧
    (∀ n : Fin 4, ((running .fault 0 n.val true).complete base.keys.straps none).2.validity = .valid) ∧
    ((running .fault 0 2 false).complete base.keys.straps none).2.validity = .stuck := by
  decide +kernel

/-! ## Witnesses: detector -/

theorem witness_LevelIsRoundedLogarithm :
    (∑ i : Fin 64, (silence[i]).toInt * (silence[i]).toInt) = 0 ∧
      (∑ i : Fin 64, ((flat 1)[i]).toInt * ((flat 1)[i]).toInt) ≠ 0 := by decide +kernel

/-- A node with a processing of a VALID frame of level 195 under a given floor, SENS 0 and HANG 0. -/
def judging (d : Detector) (p : Processing) : State :=
  { base with
    detector := { d with processing := some p }
    keys := { base.keys with straps := { base.keys.straps with sens := 0 } } }

/-- 1024 is 60.2 dB below full scale: level 195 (R19), no crossings. -/
def loud : Processing := { samples := flat 1024, validity := .valid, mic := .ok }

/-- A detector in a state, with its history and hangover. -/
def det (state : DetState) (floor rise hang : Nat) (q1 q2 : Bool) : Detector :=
  { Detector.reset with
    state := state, floor := floor, rise := rise, hangover := hang, hist1 := q1, hist2 := q2 }

/-- The clauses at their boundaries: headroom 30 qualifies and 29 does not; hangover 2 and 1; the floor
above, at and below the level; rise 6 and 7. -/
theorem witness_DetectorJudgesOneFrame :
    (level loud.samples = 195 ∧ zeroCrossings loud.samples = 0) ∧
    (∀ d : Detector, (judging d loud).inReset = false ∧ (judging d loud).detector.processing = some loud) ∧
    (after .detectorPublication (judging (det .silent 165 0 0 false false) loud)).detector.state = .onset ∧
    (after .detectorPublication (judging (det .silent 166 0 0 false false) loud)).detector.state = .silent ∧
    (after .detectorPublication (judging (det .onset 165 0 0 true false) loud)).detector.state = .speech ∧
    (after .detectorPublication (judging (det .onset 166 0 0 true false) loud)).detector.state = .onset ∧
    (after .detectorPublication (judging (det .speech 166 0 0 true true) loud)).detector.hangover = 25 ∧
    (after .detectorPublication (judging (det .hangover 166 0 2 true true) loud)).detector.hangover = 1 ∧
    (after .detectorPublication (judging (det .hangover 166 0 1 true true) loud)).detector.state = .silent ∧
    (after .detectorPublication (judging (det .silent 196 3 0 false false) loud)).detector.floor = 195 ∧
    (after .detectorPublication (judging (det .silent 195 6 0 false false) loud)).detector.rise = 7 ∧
    (after .detectorPublication (judging (det .silent 195 7 0 false false) loud)).detector.floor = 196 ∧
    (after .detectorPublication (judging (det .speech 195 3 0 true true) loud)).detector.rise = 0 := by
  refine ⟨by decide +kernel, fun d => ⟨rfl, rfl⟩, ?_⟩
  decide +kernel

/-- A completion that waits while a frame is processed. -/
theorem witness_pending_completion :
    let d : Detector := { det .silent 165 0 0 false false with
      pending := some { validity := .valid, clip := false, mic := .ok } }
    (judging d loud).detector.pending ≠ none ∧
      (after .detectorPublication (judging d loud)).detector.processing =
        some { samples := silence, validity := .cut, mic := .ok } := by decide +kernel

/-- Without a processing; under fault, with and without a completion that waits. -/
theorem witness_DetectorIsForcedSilentByFault :
    let d : Detector := { det .speech 130 0 0 true true with
      pending := some { validity := .valid, clip := false, mic := .fault } }
    (base.inReset = false ∧ base.detector.processing = none) ∧
      (judging (det .speech 130 0 0 true true) { loud with mic := .fault }).detector.processing =
        some { loud with mic := .fault } ∧
      (judging (det .speech 130 0 0 true true) { loud with mic := .fault }).detector.pending = none ∧
      (judging d { loud with mic := .fault }).detector.pending ≠ none ∧
      (after .detectorPublication (judging d { loud with mic := .fault })).detector.processing =
        some { samples := silence, validity := .cut, mic := .fault } := by
  decide +kernel

/-! ## Witnesses: line -/

/-- The edge clauses, at the fourth reading; a word with the beat pattern whose CRC-8 fails, one without the
pattern, one that passes. -/
theorem witness_CandidateIsTakenAndDropped :
    (base.inReset = false ∧ base.line.candidate = none ∧ 4 ≤ base.line.beatQuiet + (4 - base.beat.timer) ∧
      ¬ 4 ≤ base.line.beatQuiet + (3 - base.beat.timer)) ∧
    (¬ ∃ kind cycle age, base.beat.request = .sending kind cycle age) ∧
    (sendingBeat .founding 0 5 base).beat.request = .sending .founding 0 5 ∧
    (reading 3 base).line.candidate = some 3 ∧
    (natBits 32 (0xFFFFFFFF#32).toNat).take 8 ≠ beatPattern ∧
    ((natBits 32 (beatWord 5 ^^^ 1).toNat).take 8 = beatPattern ∧
      decodeBeat (natBits 32 (beatWord 5 ^^^ 1).toNat) = none) ∧
    decodeBeat (natBits 32 (beatWord 5).toNat) = some 5 := by
  refine ⟨by decide +kernel, ?_, by rfl, by decide +kernel⟩
  rintro ⟨k, c, a, h⟩
  have : base.beat.request = .idle := by decide +kernel
  rw [this] at h
  cases h

/-- A LOCKED speaker's report with a request, an owner's with a held lane, and a beat. -/
theorem witness_FramesDecodeExactlyTheirEncodings :
    decodeReport (encodeReport { report 7 with request := .claim, age := 3, score := 200 }) =
      some { report 7 with request := .claim, age := 3, score := 200 } ∧
    decodeReport (encodeReport { report 9 with held := some 3, closing := true, age := 255 }) =
      some { report 9 with held := some 3, closing := true, age := 255 } ∧
    decodeBeat [false, false, false, true, true, true, false, true,
      false, false, false, false, false, false, false, false,
      false, false, false, false, false, false, false, true,
      false, false, false, false, false, true, true, true] = some 1 := by decide +kernel

theorem witness_DriverBeginsOnlyAdmittedFrames :
    base.line.tx = none ∧ (after .coldStartExpiry base).line.tx.isSome ∧
      (after .ownReportSlotStart (inSync .entering)).line.tx.isSome ∧
      (after (.laneSlotStart 2) owner).line.tx.isSome := by decide +kernel

/-! ## Witnesses: beats -/

theorem not_sending {r : BeatRequest} (h : r = .idle) :
    ∀ kind cycle a, r ≠ .sending kind cycle a := by
  subst h
  nofun

theorem witness_TimerExpiryAndBeatWait :
    (base.inReset = false ∧ base.beat.sync = .listen) ∧
      ((inSync .aligning).inReset = false ∧ (inSync .aligning).beat.sync ≠ .listen) := by decide +kernel

theorem witness_BeatHeardInListenAligns :
    (reading 32 base).inReset = false ∧ (reading 32 base).beat.sync = .listen ∧
      (reading 32 base).line.candidate = some 32 ∧
      decodeBeat (natBits 32 (beatWord 1000).toNat) = some 1000 ∧
      ∀ kind cycle a, (reading 32 base).beat.request ≠ .sending kind cycle a :=
  ⟨by decide +kernel, by decide +kernel, rfl, by decide +kernel, not_sending (by decide +kernel)⟩

/-- A node in ALIGNING with a first beat, whose 32-bit candidate started at `start`. -/
def aligningAt (start : Nat) : State :=
  let s := at' (start + 32) (reading 32 (waiting (inSync .aligning)))
  { s with beat := { s.beat with firstBeat := true } }

/-- The first and the last start in the confirming span, and the starts next to it and to the wait. -/
theorem witness_BeatInTheWaitIsAccepted :
    (∀ n, (aligningAt n).inReset = false ∧ (aligningAt n).beat.waitOpen = true ∧
      (aligningAt n).line.candidate = some 32) ∧
    ((aligningAt 12283).beat.sync ≠ .listen ∧ (aligningAt 12283).beat.firstBeat = true) ∧
    decodeBeat (natBits 32 (beatWord 1).toNat) = some 1 ∧
    (∀ kind cycle a, (aligningAt 12283).beat.request ≠ .sending kind cycle a) ∧
    (after (.goodBeatDelivered (beatWord 1) up) (aligningAt 12280)).beat.sync = .aligning ∧
    (after (.goodBeatDelivered (beatWord 1) up) (aligningAt 12282)).beat.sync = .aligning ∧
    (after (.goodBeatDelivered (beatWord 1) up) (aligningAt 12283)).beat.sync = .observing ∧
    (after (.goodBeatDelivered (beatWord 9) up) (aligningAt 12293)).beat.sync = .observing ∧
    (after (.goodBeatDelivered (beatWord 1) up) (aligningAt 12294)).beat.sync = .aligning := by
  refine ⟨fun n => ⟨rfl, rfl, rfl⟩, by decide +kernel, by decide +kernel,
    not_sending (by decide +kernel), ?_⟩
  decide +kernel

/-- A start one bit time before the wait, and a closed wait. -/
theorem witness_BeatOutsideTheWaitIsAdopted :
    ((aligningAt 12279).beat.sync ≠ .listen ∧ (aligningAt 12279).beat.waitOpen = true ∧
      ((aligningAt 12279).beat.timer : Int) - 32 < 12280) ∧
    (reading 32 (inSync .locked)).beat.waitOpen = false ∧
    (∀ kind cycle a, (aligningAt 12279).beat.request ≠ .sending kind cycle a) ∧
    (∀ kind cycle a, (reading 32 (inSync .locked)).beat.request ≠ .sending kind cycle a) ∧
    decodeBeat (natBits 32 (beatWord 1).toNat) = some 1 :=
  ⟨by decide +kernel, by decide +kernel, not_sending (by decide +kernel),
    not_sending (by decide +kernel), by decide +kernel⟩

/-- A founder about to expire with no candidate, with one found in the same bit time, with one before; a
waiting beat in a state that admits it and in one that does not. -/
theorem witness_FoundingAndDeferredBeatsStart :
    (base.inReset = false ∧ base.beat.sync = .listen ∧ base.beat.coldStart = some 46080) ∧
    (∀ age, (base.elapse 46080).line.candidate = some age → age = 0) ∧
    ((reading 0 base).elapse 46080).line.candidate = some 46080 ∧
    (let s : State := { taker with beat := { taker.beat with request := .waiting .taker } }
     s.beat.request = .waiting .taker ∧ s.line.candidate = none ∧ s.beat.sync = .locked) ∧
    (let s : State := { inSync .aligning with
       beat := { (inSync .aligning).beat with request := .waiting .founding } }
     s.beat.request = .waiting .founding ∧ s.line.candidate = none ∧ s.beat.sync ≠ .listen) := by
  refine ⟨by decide +kernel, ?_, by decide +kernel, by decide +kernel, by decide +kernel⟩
  intro age h
  have : (base.elapse 46080).line.candidate = none := by decide +kernel
  rw [this] at h
  cases h

theorem witness_HolderAndTakerSendTheBeat :
    (holder.inReset = false ∧ holder.beat.sync = .locked ∧ holder.beat.barred = 0 ∧
      holder.beat.holder = some holder.own ∧ holder.beat.request = .idle) ∧
    (taker.inReset = false ∧ taker.beat.sync = .locked ∧ taker.beat.holder ≠ some taker.own ∧
      taker.beat.rank = some 1 ∧ taker.beat.barred = 0 ∧ taker.beat.waitOpen = true ∧
      taker.beat.takerAt = none) ∧
    (after .takerDecision taker).beat.takerAt = some 12336 ∧
    ((reading 1 (at' 12288 holder)).elapseTo 12288).line.candidate = some 1 := by decide +kernel

/-- The clauses in which those commands do nothing. -/
theorem witness_nothing_to_start :
    (inSync .locked).beat.sync ≠ .listen ∧ (inSync .locked).inReset = false ∧
      (∀ kind, base.beat.request ≠ .waiting kind) ∧ (reading 3 taker).line.candidate ≠ none ∧
      (sendingBeat .holder 1 4 holder).beat.request ≠ .idle ∧ base.beat.sync = .listen ∧
      base.mix.formingLeft = [] ∧ base.mix.formingPlaying = none ∧ base.mix.formingNext = none ∧
      ∀ kind cycle sent, base.beat.request ≠ .sending kind cycle sent := by
  have h : base.beat.request = .idle := by decide +kernel
  refine ⟨by decide +kernel, by decide +kernel, ?_, by decide +kernel, nofun, by decide +kernel,
    by decide +kernel, by decide +kernel, by decide +kernel, not_sending h⟩
  rw [h]
  nofun

/-- A founding beat; a holder's beat with the wait open; a taker's with the wait closed. -/
theorem witness_CleanBeatStartsItsCycle :
    ((sendingBeat .founding 0 32 base).inReset = false ∧
      (sendingBeat .founding 0 32 base).beat.request = .sending .founding 0 32 ∧
      natBits 32 (beatWord 0).toNat = encodeBeat 0) ∧
    ((sendingBeat .holder 1 32 (waiting holder)).inReset = false ∧
      (sendingBeat .holder 1 32 (waiting holder)).beat.waitOpen = true ∧
      (sendingBeat .taker 1 32 holder).beat.waitOpen = false ∧ BeatKind.holder ≠ .founding ∧
      natBits 32 (beatWord 1).toNat = encodeBeat 1) := by decide +kernel

/-- The readback that differs in its last bit alone. -/
theorem witness_CollidingBeatBarsOrWaits :
    (sendingBeat .holder 1 32 holder).beat.request = .sending .holder 1 32 ∧
      (sendingBeat .founding 0 3 base).beat.request = .sending .founding 0 3 ∧
      natBits 32 (beatWord 1 ^^^ 1).toNat ≠ encodeBeat 1 := by decide +kernel

theorem witness_BeatFailureContinuesTheCycle :
    ((waiting (inSync .locked)).inReset = false ∧ (waiting (inSync .locked)).beat.sync ≠ .listen ∧
      (waiting (inSync .locked)).beat.sync ≠ .aligning ∧ (waiting (inSync .locked)).beat.waitOpen = true ∧
      (waiting (inSync .locked)).beat.failures < 2) ∧
    ((waiting (inSync .aligning)).beat.sync = .aligning ∧
      (waiting (inSync .aligning)).beat.failures < 2) ∧
    ((failing .aligning).beat.failures = 2 ∧ (failing .aligning).beat.waitOpen = true ∧
      (failing .aligning).beat.sync = .aligning) := by decide +kernel

theorem witness_ThirdBeatFailureRejoins :
    (failing .locked).inReset = false ∧ (failing .locked).beat.sync ≠ .listen ∧
      (failing .locked).beat.sync ≠ .aligning ∧ (failing .locked).beat.waitOpen = true ∧
      (failing .locked).beat.failures = 2 := by decide +kernel

theorem witness_SyncStateMovesAlongTheTable :
    base.FoundingSound ∧ (after (.goodBeatDelivered (beatWord 1000) up) (reading 0 base)).beat.sync ≠
      base.beat.sync :=
  ⟨fun _ => by decide +kernel, by decide +kernel⟩

/-! ## Witnesses: reports and census -/

/-- The request clauses of a LOCKED node: silent AUTO, speaking AUTO, CHAIR and KEYED; the age clauses. -/
theorem witness_OwnReportSlotAssemblesTheReport :
    (inSync .locked).inReset = false ∧ (inSync .entering).beat.sync = .entering ∧
    (inSync .observing).beat.sync ≠ .entering ∧ (inSync .observing).beat.sync ≠ .locked ∧
    (let s : State := { inSync .locked with detector := { Detector.reset with outState := .speech } }
     (after .ownReportSlotStart s).lanes.request = .claim ∧
     (after .ownReportSlotStart (withRole .chair s)).lanes.request = .priority ∧
     (after .ownReportSlotStart (withRole .keyed s)).lanes.request = .none ∧
     (after .ownReportSlotStart
       { s with lanes := { s.lanes with request := .claim, waitAge := 255 } }).lanes.waitAge = 255 ∧
     (after .ownReportSlotStart
       { s with lanes := { s.lanes with request := .priority, waitAge := 7 } }).lanes.waitAge = 1) ∧
    owner.lanes.table.laneOf owner.own = some 2 := by decide +kernel

theorem witness_ReportOutcomeIsKeptWithTheCensus :
    (base.inReset = false ∧ base.census.reportTx = none) ∧
    (let s := after .ownReportSlotStart (inSync .locked)
     ∃ r, s.census.reportTx = some r ∧ natBits 83 (wordOf 83 (encodeReport r)).toNat = encodeReport r ∧
      natBits 83 (BitVec.allOnes 83).toNat ≠ encodeReport r ∧
      s.line.tx = some { kind := .report, bits := encodeReport r, sent := 0 }) :=
  ⟨by decide +kernel, _, rfl, by decide +kernel, by decide +kernel, rfl⟩

/-- A start edge at position `e` of a slot, after recessive readings only. -/
theorem slotRx_edge {opens free span : Nat} (e : Nat) (bits : List Bool) (he : e < span)
    (hf : free + 4 ≤ opens + e) : FirstEdge (slotRx e (false :: bits)) opens free span (some e) := by
  refine ⟨he, ⟨by simp [slotRx], hf, fun k h1 h4 => ⟨fun hk => ?_, fun _ => by simp [slotRx]; omega⟩⟩, ?_⟩
  · simp [slotRx, List.getElem?_append_left, show e - k < e by omega]
  · rintro k hk ⟨h, -⟩
    simp [slotRx, List.getElem?_append_left, hk] at h

/-- The window's last position and the next, a GOOD report, the own slot, a slot without an edge. -/
theorem witness_ReportSlotEntersOnlyGoodReports :
    ((cycling .locked).inReset = false ∧ (cycling .locked).line.reportSpans[(7 : Addr)] = true ∧
      base.line.reportSpans[(7 : Addr)] = false ∧ (cycling .locked).line.slotFree = 0) ∧
    (∃ bits, encodeReport (report 7) = false :: bits) ∧
    (∀ bits, FirstEdge (slotRx 16 (false :: bits)) (56 + 96 * 7) 0 96 (some 16) ∧
      FirstEdge (slotRx 17 (false :: bits)) (56 + 96 * 7) 0 96 (some 17)) ∧
    FirstEdge quiet (56 + 96 * 7) 0 96 none ∧
    decodeReport (encodeReport (report 7)) = some (report 7) ∧ (7 : Addr) ≠ (cycling .locked).own ∧
    (after (.reportSlotDelivered 7 (slotRx 16 (encodeReport (report 7)))) (cycling .locked)).census.entries[7] =
      some (report 7) ∧
    (after (.reportSlotDelivered 7 (slotRx 17 (encodeReport (report 7)))) (cycling .locked)).census.entries[7] =
      none ∧
    (after (.reportSlotDelivered 3 (slotRx 8 (encodeReport (report 3)))) (cycling .locked)).census.entries[3] =
      none := by
  refine ⟨by decide +kernel, ⟨_, rfl⟩, fun bits => ⟨slotRx_edge 16 bits (by decide) (by decide),
    slotRx_edge 17 bits (by decide) (by decide)⟩, ?_, by decide +kernel⟩
  rintro k hk ⟨h, -⟩
  simp [quiet] at h

/-- A peer table with every entry of Table 5-4, the own one apart. -/
def everyPresence : PeerTable :=
  #v[PeerEntry.absent, { presence := .arriving, good := 1, miss := 0 },
    { presence := .present, good := 2, miss := 0 }, ownEntry .locked,
    { presence := .missing, good := 2, miss := 1 }, { presence := .missing, good := 2, miss := 2 },
    { presence := .foreign, good := 0, miss := 0 }, { presence := .foreign, good := 0, miss := 2 },
    PeerEntry.absent, PeerEntry.absent, PeerEntry.absent, PeerEntry.absent, PeerEntry.absent,
    PeerEntry.absent, PeerEntry.absent, PeerEntry.absent]

/-- A LOCKED node with that peer table. -/
def withPeers (t : PeerTable) (s : State) : State := { s with census := { s.census with peers := t } }

/-- A node with that divergence counter. -/
def withDivergence (n : Nat) (s : State) : State := { s with lanes := { s.lanes with divergence := n } }

theorem witness_CensusCloseUpdatesPresence :
    ((withPeers everyPresence (inSync .locked)).inReset = false ∧
      (withPeers everyPresence (inSync .locked)).beat.sync ≠ .listen ∧
      (withPeers everyPresence (inSync .locked)).beat.sync ≠ .aligning ∧
      (withPeers everyPresence (inSync .locked)).lanes.divergence < 3) ∧
    (after .censusClose (withDivergence 3 (withPeers everyPresence (inSync .locked)))).beat.sync ≠ .listen ∧
    ((after .censusClose (inSync .conflict)).keys.linkPhase = true ∧
      (after .censusClose (inSync .conflict)).beat.sync = .observing) ∧
    ∀ a : Addr, (withPeers everyPresence (inSync .locked)).census.peers[a].Sound := by
  refine ⟨by decide +kernel, by decide +kernel, by decide +kernel, ?_⟩
  intro a
  fin_cases a <;>
    first
    | exact ⟨rfl, rfl⟩
    | exact ⟨rfl, Or.inl rfl⟩
    | exact ⟨rfl, Or.inr rfl⟩
    | exact ⟨rfl, by decide⟩

/-- A node whose own report collided once before and again now. -/
def clashing (s : State) : State :=
  { s with census := { s.census with readback := some .collision, ownCollisions := 1 } }

/-- A node whose own report collided for the first time. -/
def collided (s : State) : State :=
  { s with census := { s.census with readback := some .collision } }

theorem witness_SecondOwnCollisionIsConflict :
    ((clashing owner).inReset = false ∧ (clashing owner).beat.sync = .locked ∧
      (clashing owner).census.readback = some .collision ∧ (clashing owner).census.ownCollisions = 1 ∧
      (clashing owner).lanes.table.laneOf (clashing owner).own ≠ none) ∧
    (clashing (inSync .entering)).beat.sync = .entering ∧
    ((collided owner).beat.sync = .locked ∧ (collided owner).census.ownCollisions = 0 ∧
      (collided owner).lanes.divergence < 3) ∧
    ((collided (inSync .entering)).beat.sync = .entering ∧
      (collided (inSync .entering)).census.ownCollisions = 0) ∧
    (after .censusClose (collided owner)).census.ownCollisions = 1 ∧
    (after .censusClose (withDivergence 3 (collided owner))).beat.sync = .locked := by decide +kernel

/-- The lane table of the owner is legal. -/
theorem owner_legal : owner.lanes.table.Legal owner.laneCount :=
  ⟨by decide +kernel, by decide +kernel⟩

/-- The owner, whose lane 2 the PRESENT address 5 announces with a higher hold age. -/
def losing (x : SyncState) : State :=
  let s := withEntries (put (Vector.replicate 16 none) 5 (some { report 5 with
      held := some 2, age := 90, digest := owner.lanes.digest })) (owner.setSync x)
  { s with census := { s.census with
      peers := put s.census.peers 5 { presence := .present, good := 2, miss := 0 } } }

/-- The owner in its closing cycle, after a collision in its lane. -/
def closing : State :=
  let s := withEntries (put (Vector.replicate 16 none) 3 (some { report 3 with
      held := some 2, closing := true, digest := owner.lanes.digest })) owner
  { s with lanes := { s.lanes with releasePending := some .release, laneCollisions := 1 } }

/-- The table of the owner under election, closed, lost to repair, and in follow mode; the divergence counter
at 3. -/
theorem witness_CensusCloseWritesTheLaneTable :
    (∀ x, (losing x).inReset = false ∧ (losing x).lanes.divergence < 3 ∧ (losing x).beat.sync = x) ∧
    (losing .locked).lanes.table.Legal (losing .locked).laneCount ∧
    (after .censusClose owner).lanes.table[2] = .held 3 .auto 6 20 false ∧
    (after .censusClose (losing .locked)).lanes.table[2] = .held 5 .auto 90 0 false ∧
    (after .censusClose (losing .locked)).lanes.slotCopy[2] = .free ∧
    (after .censusClose (losing .observing)).lanes.table[2] = .held 5 .auto 90 0 false ∧
    (closing.lanes.table.laneOf closing.own = some 2 ∧ closing.lanes.laneCollisions = 1 ∧
      (after .censusClose closing).lanes.table[2] = .free ∧
      (after .censusClose closing).lanes.releasePending = none ∧
      (after .censusClose closing).lanes.laneCollisions = 0) ∧
    (after .censusClose (withDivergence 3 owner)).beat.sync = .locked := by
  refine ⟨fun x => by cases x <;> decide +kernel, owner_legal, ?_⟩
  decide +kernel

/-- The status port after the losing node's census close, and that of a node in conflict: GATE before REPAIR
before REQUEST. The REQUEST and the second GATE take the places of those that wait. -/
theorem witness_CensusCloseHandsOverItsRecords :
    ((losing .locked).inReset = false ∧ (losing .locked).lanes.divergence < 3 ∧
      (after .censusClose (withDivergence 3 (losing .locked))).beat.sync = .locked) ∧
    (losing .locked).lanes.table.Legal (losing .locked).laneCount ∧
    ((after .censusClose (losing .locked)).status.queue.drop 1).map (·.body) =
      [.gate 2 false .conflict, .repair 2 (some 3) 5] ∧
    (let s := clashing (losing .locked)
     ((after .censusClose { s with lanes := { s.lanes with request := .claim } }).status.queue.drop 1).map
       (·.body) =
      [.sync .conflict .slotConflict none, .gate 2 false .conflict, .repair 2 none 5, .request .none 0]) := by
  refine ⟨by decide +kernel, owner_legal, ?_⟩
  decide +kernel

/-- Reports of candidates 2 and 3 (the own address) in a line where both are PRESENT. -/
def choosing : State :=
  withPeers everyPresence (withEntries
    (put (put (Vector.replicate 16 none) 2 (some { report 2 with candidate := true }))
      3 (some { report 3 with candidate := true })) (inSync .locked))

/-- From LOCKED, with a divergence counter of 3, and from ENTERING. -/
theorem witness_LockedNodeSelectsTheHolder :
    (let s := choosing.setSync .entering
     let t := after .censusClose { s with
       beat := { s.beat with entCount := 1 }, census := { s.census with readback := some .clean } }
     t.beat.sync = .locked ∧ t.beat.holder = some 2 ∧ t.beat.rank = some 0) ∧
    choosing.inReset = false ∧ choosing.beat.sync = .locked ∧
      ((collided choosing).census.readback = some .collision ∧ choosing.census.ownCollisions = 0) ∧
      (after .censusClose (collided choosing)).beat.holder = some 2 ∧ choosing.lanes.divergence < 3 ∧
      (after .censusClose choosing).beat.holder = some 2 ∧
      (after .censusClose choosing).beat.rank = some 0 ∧
      (after .censusClose (withDivergence 3 choosing)).beat.holder = some 2 := by decide +kernel

/-- The holder's report, from address 2 with fingerprint `f`, alone in the census. -/
def held (f : BitVec 8) : CensusEntries :=
  put (Vector.replicate 16 none) 2 (some { report 2 with holder := true, fingerprint := f })

theorem only_holder (f : BitVec 8) (x : SyncState) :
    (withEntries (held f) (inSync x)).census.entries[(2 : Addr)] =
      some { report 2 with holder := true, fingerprint := f } ∧
    ∀ b : Addr, b < 2 → ∀ r, (withEntries (held f) (inSync x)).census.entries[b] = some r →
      r.holder = false := by
  have none_below : ∀ b : Addr, b < 2 →
      (withEntries (held f) (inSync x)).census.entries[b] = none := by
    intro b hb
    fin_cases b <;> first | rfl | exact absurd hb (by decide)
  refine ⟨rfl, fun b hb r hr => ?_⟩
  rw [none_below b hb] at hr
  cases hr

theorem no_holder (x : SyncState) (a : Addr) (r : Report) :
    (inSync x).census.entries[a] = some r → r.holder = false := by
  have h : (inSync x).census.entries[a] = none := by fin_cases a <;> rfl
  rw [h]
  nofun

/-- Each clause, on its counter's two values. -/
theorem witness_CensusCloseMovesTheSyncState :
    (∀ x, (inSync x).inReset = false ∧ (inSync x).lanes.divergence < 3 ∧ (inSync x).beat.sync = x ∧
      (inSync x).census.readback ≠ some .collision) ∧
    (after .censusClose (withEntries (held 0x2C) (inSync .observing))).beat.obsCount = 1 ∧
    (after .censusClose (withEntries (held 0x24) (inSync .observing))).beat.sync = .incompatible ∧
    (after .censusClose (withEntries (held 0x2C) (inSync .incompatible))).beat.sync = .observing ∧
    (after .censusClose (inSync .conflict)).beat.sync = .observing ∧
    (let s := inSync .conflict
     (after .censusClose { s with census := { s.census with conflictWait := 1 } }).beat.sync) = .conflict ∧
    (let s := withEntries (held 0x2C) (inSync .observing)
     (after .censusClose { s with beat := { s.beat with obsCount := 1 } }).beat.sync) = .entering ∧
    (let s := inSync .entering
     let t : State := { s with census := { s.census with readback := some .clean } }
     (after .censusClose t).beat.entCount = 1 ∧
     (after .censusClose (collided { t with beat := { t.beat with entCount := 1 } })).beat.entCount = 0 ∧
     (after .censusClose { t with beat := { t.beat with entCount := 1 } }).beat.sync = .locked) := by
  refine ⟨fun x => by cases x <;> decide +kernel, ?_⟩
  decide +kernel

/-- A LOCKED node whose own report differs from that of PRESENT address 2, before its fourth divergence. -/
def differing (n : Nat) : State :=
  let s := withPeers everyPresence (withEntries
    (put (put (put (Vector.replicate 16 none) 2 (some { report 2 with digest := 7 }))
      4 (some { report 4 with digest := 7 })) 3 (some (report 3))) (inSync .locked))
  { s with lanes := { s.lanes with divergence := n } }

theorem witness_DivergenceCountsAndRejoins :
    (∀ n, (differing n).inReset = false ∧ (differing n).beat.sync = .locked ∧
      ((differing n).census.readback = some .collision → (differing n).census.ownCollisions = 0) ∧
      (differing n).census.entries[(differing n).own] = some (report 3)) ∧
    (after .censusClose (differing 0)).lanes.divergence = 1 ∧
    (after .censusClose (differing 2)).lanes.divergence = 3 ∧
    (after .censusClose (differing 3)).beat.sync = .listen ∧
    ((after .censusClose (differing 3)).status.queue.drop 1).map (·.body) =
      ((after .censusClose (differing 2)).status.queue.drop 1).map (·.body) ++ [.sync .listen .diverged none] ∧
    (after .censusClose (withDivergence 3 choosing)).lanes.divergence = 0 := by
  refine ⟨fun n => ⟨rfl, rfl, nofun, rfl⟩, ?_⟩
  decide +kernel

/-! ## Witnesses: lanes -/

/-- A census with claims of PRESENT addresses 2 and 5. -/
def claiming : Delivery :=
  { entries := put (put (Vector.replicate 16 none) 2 (some { report 2 with request := .claim, age := 3 }))
      5 (some { report 5 with request := .priority })
    peers := Vector.replicate 16 { presence := .present, good := 2, miss := 0 }
    m := 4 }

theorem witness_ClaimListIsOrderedAndComplete :
    (claimList claiming LaneTable.allFree).map (·.addr) = [5, 2] ∧
    (claimList { claiming with
      entries := put claiming.entries 9 (some { report 9 with role := .chair, muteAll := true }) }
      LaneTable.allFree) = [] := by decide +kernel

/-- Two announcements of lane 1: the older one wins, and lane 1 has no winner when M is 1. -/
theorem witness_WinnerIsTheOldestAnnouncement :
    let d : Delivery := { claiming with
      entries := put (put (Vector.replicate 16 none) 2 (some { report 2 with held := some 1, age := 3 }))
        5 (some { report 5 with held := some 1, age := 4 }) }
    ((winner 4 (announcements .locked none d) 1).map (·.addr)) = some 5 ∧
      winner 1 (announcements .locked none d) 1 = none := by decide +kernel

/-- Address 5 is adopted for lane 1 and leaves lane 0; lane 2 keeps its winner; lane 3 has none. -/
theorem witness_RepairAdoptsAndFollowModeUpdates :
    let win : Lane → Option Announcement := fun l =>
      if l = 1 then some { addr := 5, lane := 1, age := 9, role := .chair, score := 4, idle := false }
      else if l = 2 then some { addr := 6, lane := 2, age := 7, role := .auto, score := 3, idle := true }
      else none
    let before : LaneTable :=
      #v[.held 5 .auto 8 2 false, .held 7 .auto 3 3 false, .granted 6 .auto 5 false, .granted 4 .auto 1 false]
    (∀ (j k : Lane) (x y : Announcement), win j = some x → win k = some y → x.addr = y.addr → j = k) ∧
    repairTable win before before =
      #v[.free, .held 5 .priority 9 4 false, .granted 6 .auto 5 false, .granted 4 .auto 1 false] ∧
    followTable { claiming with peers := everyPresence } win before =
      #v[.free, .held 5 .priority 9 4 false, .held 6 .auto 7 3 true, .held 4 .auto 1 1 false] := by
  refine ⟨?_, by decide +kernel, by decide +kernel⟩
  intro j k x y hj hk h
  fin_cases j <;> fin_cases k <;> simp_all <;> (subst hj hk; cases h)

/-- An owner gone, one that closes, one that reports, one silent. -/
theorem witness_LanesAreFreedAndConfirmed :
    let d : Delivery := { claiming with
      entries := put (put (Vector.replicate 16 none) 2 (some { report 2 with held := some 1, closing := true }))
        4 (some { report 4 with held := some 2, age := 6, score := 8 })
      peers := put (Vector.replicate 16 { presence := .present, good := 2, miss := 0 }) 9 PeerEntry.absent }
    let t : LaneTable :=
      #v[.held 9 .auto 8 2 false, .held 2 .auto 3 3 false, .granted 4 .auto 5 false, .held 6 .auto 255 1 false]
    stage2 d t = #v[.free, .free, .granted 4 .auto 5 false, .held 6 .auto 255 1 false] ∧
    stage3 d (stage2 d t) = #v[.free, .free, .held 4 .auto 6 8 false, .held 6 .auto 255 1 false] := by
  decide +kernel

theorem witness_FreeLanesGoToTheFirstClaims :
    let t : LaneTable := #v[.held 6 .auto 3 9 false, .free, .free, .free]
    ((List.finRange 4).filter fun l => decide (l.val < 3) && t[l].isFree) = [1, 2] ∧
      ((stage5 3 t [claim9 1]).1[1] = .granted 9 .auto 1 false) := by decide +kernel

/-- Hold age 25 and a margin of exactly 12 are eligible; 24 and 11 are not; PRIORITY needs neither. -/
theorem witness_PreemptionTakesTheWeakestLane :
    stage7 .loudest #v[.held 4 .auto 25 18 false, .free, .free, .free] [claim9 30] ≠
      #v[.held 4 .auto 25 18 false, .free, .free, .free] ∧
    stage7 .loudest #v[.held 4 .auto 24 18 false, .free, .free, .free] [claim9 30] =
      #v[.held 4 .auto 24 18 false, .free, .free, .free] ∧
    stage7 .loudest #v[.held 4 .auto 25 19 false, .free, .free, .free] [claim9 30] =
      #v[.held 4 .auto 25 19 false, .free, .free, .free] ∧
    stage7 .firstOn #v[.held 4 .auto 1 90 false, .free, .free, .free]
      [{ claim9 0 with priority := true }] ≠ #v[.held 4 .auto 1 90 false, .free, .free, .free] := by
  decide +kernel

/-- The same node under address 5, in ENTERING. -/
def other : State :=
  { owner with
    keys := { owner.keys with straps := { owner.keys.straps with addr := 5 } }
    beat := { owner.beat with sync := .entering } }

theorem witness_EqualNodesElectEqualTables :
    (owner.beat.sync = .locked ∧ other.beat.sync = .entering) ∧ owner.laneCount = other.laneCount ∧
      owner.keys.straps.policy = other.keys.straps.policy ∧
      owner.census.entries = other.census.entries ∧ owner.census.peers = other.census.peers ∧
      owner.lanes.table = other.lanes.table ∧ owner.lanes.table.Legal owner.laneCount ∧
      owner.lanes.cutInCycle = false ∧ other.lanes.cutInCycle = false ∧ owner.own ≠ other.own :=
  ⟨by decide +kernel, rfl, rfl, rfl, rfl, rfl, owner_legal, by decide +kernel, by decide +kernel,
    by decide +kernel⟩

/-- The rows of Table 6-8 at the node that owns lane 2: mute-all, microphone fault, silence, talk. -/
theorem witness_HeldOwnLaneIsTestedForRelease :
    (owner.inReset = false ∧ owner.beat.sync = .locked ∧
      (owner.census.readback = some .collision → owner.census.ownCollisions = 0) ∧
      owner.lanes.divergence < 3 ∧ owner.lanes.table.laneOf owner.own = some 2 ∧
      owner.lanes.releasePending = none) ∧
    (after .censusClose owner).lanes.table[2] = .held 3 .auto 6 20 false ∧
    (after .censusClose owner).lanes.releasePending = some .release ∧
    (after .censusClose { owner with
      capture := { owner.capture with mic := .fault } }).lanes.releasePending = some .mic ∧
    (after .censusClose (withPeers everyPresence (withEntries (put (Vector.replicate 16 none) 2
      (some { report 2 with role := .chair, muteAll := true })) owner))).lanes.releasePending =
        some .revoked ∧
    (after .censusClose { owner with
      detector := { owner.detector with outState := .speech } }).lanes.releasePending = none ∧
    (after .censusClose { owner with
      keys := { owner.keys with straps := { owner.keys.straps with lastOn := true } } }).lanes.idleHold =
        true := by decide +kernel

/-- A number read back gives its bits again. -/
theorem natBits_bitsNat (bits : List Bool) : natBits bits.length (bitsNat bits) = bits := by
  induction bits using List.reverseRecOn with
  | nil => rfl
  | append_singleton xs b ih =>
    have h : bitsNat (xs ++ [b]) = 2 * bitsNat xs + b.toNat := by simp [bitsNat]
    apply List.ext_getElem
    · simp [natBits]
    · intro i h1 h2
      have hi : i < xs.length + 1 := by simpa using h2
      rw [List.getElem_append]
      simp only [natBits, List.getElem_map, List.getElem_range, h, List.length_append, List.length_singleton]
      rw [show xs.length + 1 - 1 - i = xs.length - i by omega]
      by_cases hx : i < xs.length
      · have := congrArg (fun l => l[i]?) ih
        simp only [natBits] at this
        rw [List.getElem?_eq_getElem (by simpa using hx), List.getElem?_eq_getElem hx] at this
        simp only [List.getElem_map, List.getElem_range, Option.some.injEq] at this
        rw [dif_pos hx, ← this, show xs.length - i = (xs.length - 1 - i) + 1 by omega, Nat.testBit_succ]
        congr 1
        have := b.toNat_lt
        omega
      · rw [dif_neg hx, show xs.length - i = 0 by omega]
        cases b <;> simp [Nat.testBit_zero]

theorem wordOf_bits {w : Nat} (bits : List Bool) (h : bits.length = w) :
    natBits w (wordOf w bits).toNat = bits := by
  subst h
  conv_rhs => rw [← natBits_bitsNat bits]
  rw [wordOf, BitVec.toNat_ofNat]
  apply List.map_congr_left
  intro i hi
  rw [List.mem_range] at hi
  rw [Nat.testBit_mod_two_pow, decide_eq_true (by omega), Bool.true_and]

theorem encodeLane_length (f : LaneFrame) : (encodeLane f).length = 1064 := by
  simp [encodeLane, lanePattern, laneBody, sampleBits, natBits, List.length_flatMap]

/-- The frame that the owner sends in lane slot 2. -/
def ownFrame : LaneFrame := (owner.elapseTo 3776).ownLaneFrame 2

/-- A clean readback, one that differs at the first bit, one of a frame that was stopped; a first and a second
collision; a lane lost in between. -/
theorem witness_SecondLaneCollisionCutsTheLane :
    (owner.inReset = false ∧ owner.line.stopped = [] ∧ owner.audio.tx = none) ∧
    ((colliding 1).line.stopped = [] ∧ (colliding 1).audio.tx = some ownFrame) ∧
    (∃ read : BitVec 1064, natBits 1064 read.toNat = encodeLane ownFrame) ∧
    ((natBits 1064 (BitVec.allOnes 1064).toNat)[0]? = some true ∧
      (encodeLane ownFrame)[0]? = some false) ∧
    (let s : State := { owner with line := { owner.line with stopped := [[false, true]] } }
     s.line.stopped = [false, true] :: [] ∧
     (after (.laneReadbackOutcome (BitVec.allOnes 1064)) s).line.stopped = [] ∧
     (after (.laneReadbackOutcome (BitVec.allOnes 1064)) s).lanes.laneCollisions = 1) ∧
    ((colliding 0).lanes.laneCollisions = 0 ∧ (colliding 1).lanes.laneCollisions = 1 ∧
      (colliding 1).lanes.table.laneOf (colliding 1).own = some 2) ∧
    (withLanes LaneTable.allFree LaneTable.allFree (colliding 1)).lanes.table.laneOf 3 = none := by
  refine ⟨by decide +kernel, ⟨rfl, rfl⟩, ⟨_, wordOf_bits _ (encodeLane_length _)⟩,
    ⟨by decide +kernel, rfl⟩, by decide +kernel, by decide +kernel, by decide +kernel⟩

/-! ## Witnesses: lane audio and mix -/

/-- The owner with a VALID slot of age 3. -/
def recorded : State :=
  { owner with capture := { owner.capture with
      slots := Vector.replicate 4 { samples := flat 9, validity := .valid, clip := false } } }

theorem witness_LaneSlotSendsTheOwnFrame :
    owner.inReset = false ∧
    ((2 : Lane).val < owner.laneCount ∧ owner.beat.sync = .locked ∧
      owner.lanes.slotCopy[(2 : Lane)].owner = some owner.own) ∧
    (owner.capture.ofAge 3).validity ≠ .valid ∧ (recorded.capture.ofAge 3).validity = .valid ∧
    recorded.lanes.slotCopy[(2 : Lane)].isGranted = false ∧
    (withLanes LaneTable.allFree #v[.free, .free, .granted 3 .auto 0 false, .free]
      recorded).lanes.slotCopy[(2 : Lane)].isGranted = true ∧
    owner.lanes.slotCopy[(1 : Lane)].owner ≠ some owner.own := by decide +kernel

/-- A CRC-16 register carried through bits as a number, each step evaluated before the next. -/
def crcFrom (r : Nat) : List Bool → Nat
  | [] => r
  | b :: bs =>
    match (crc16Step (BitVec.ofNat 16 r) b).toNat with
    | 0 => crcFrom 0 bs
    | n + 1 => crcFrom (n + 1) bs

theorem crcFrom_eq (bits : List Bool) (r : Nat) (hr : r < 65536) :
    crcFrom r bits = (bits.foldl crc16Step (BitVec.ofNat 16 r)).toNat := by
  induction bits generalizing r with
  | nil => simp [crcFrom, Nat.mod_eq_of_lt hr]
  | cons b bs ih =>
    have hlt := (crc16Step (BitVec.ofNat 16 r) b).isLt
    have h := ih _ hlt
    simp only [BitVec.ofNat_toNat, BitVec.setWidth_eq] at h
    rw [List.foldl_cons, ← h, crcFrom]
    split <;> rename_i hn <;> rw [hn]

/-- The frame of 8.7 with each marker, and its CRC-16, computed by hand of the rule of R170. -/
def marked (m : Marker) : LaneFrame := { frame103 with marker := m }

def markedCrc : Marker → Nat
  | .first => 1541
  | .last => 57499
  | .continue => 43920
  | .silent => 19726

theorem marked_crc (m : Marker) : crcFrom 65535 (laneBody (marked m)) = markedCrc m := by
  cases m <;> decide +kernel

/-- The 1064 bits of that frame. -/
def markedBits (m : Marker) : List Bool := lanePattern ++ laneBody (marked m) ++ natBits 16 (markedCrc m)

theorem marked_shape (m : Marker) : (markedBits m).length = 1064 ∧ (markedBits m).take 8 = lanePattern ∧
    ((markedBits m).drop 8).take 1040 = laneBody (marked m) ∧ field (markedBits m) 1048 16 = markedCrc m := by
  cases m <;> decide +kernel

theorem marked_decodes (m : Marker) : decodeLane (markedBits m) = some (marked m) := by
  have hc : (crc16 (laneBody (marked m))).toNat = markedCrc m := by
    rw [crc16, ← marked_crc, crcFrom_eq _ _ (by decide)]
  rw [decodeLane, if_pos ⟨(marked_shape m).1, (marked_shape m).2.1, by
    rw [(marked_shape m).2.2.1, (marked_shape m).2.2.2, hc]⟩]
  cases m <;> decide +kernel

theorem bitsFrom_slotRx (e : Nat) (bits : List Bool) : bitsFrom (slotRx e bits) e bits.length = bits := by
  simp [bitsFrom, slotRx]

/-- A slot with a frame of each marker, at the window's last position and at the next: it has its first start
edge there, and the bits from that edge on decode. -/
theorem witness_lane_receptions (m : Marker) :
    FirstEdge (slotRx 16 (markedBits m)) 1592 0 1088 (some 16) ∧
    FirstEdge (slotRx 17 (markedBits m)) 1592 0 1088 (some 17) ∧
    FirstEdge quiet 1592 0 1088 none ∧
    decodeLane (bitsFrom (slotRx 16 (markedBits m)) 16 1064) = some (marked m) := by
  obtain ⟨rest, h⟩ : ∃ rest, markedBits m = false :: rest := ⟨_, rfl⟩
  refine ⟨h ▸ slotRx_edge 16 rest (by decide) (by decide), h ▸ slotRx_edge 17 rest (by decide) (by decide),
    ?_, ?_⟩
  · rintro k hk ⟨h, -⟩
    simp [quiet] at h
  · rw [← (marked_shape m).1, bitsFrom_slotRx]
    exact marked_decodes m

/-- The hearing node after a lane's earlier cycles: its receive state, and whether it has faded. -/
def heard (x : RecvState) (faded : Bool) : State :=
  { hearing with audio := { hearing.audio with
      lanes := put hearing.audio.lanes 0 { hearing.audio.lanes[0] with state := x, faded := faded } } }

/-- The hypotheses of acceptance, those of the ramps, a miss after a GOOD frame and without one, another
source, a FREE lane, the last delivery of a cycle and one before the last. -/
theorem witness_LaneSlotIsJudged :
    (hearing.inReset = false ∧ hearing.line.laneSpans[(0 : Lane)] = true ∧ hearing.line.slotFree = 0 ∧
      base.line.laneSpans[(0 : Lane)] = false) ∧
    (∀ m, (marked m).lane = 0 ∧ hearing.lanes.slotCopy[(0 : Lane)].owner = some (marked m).src ∧
      (marked m).sequence.toNat = (hearing.beat.cycle.toNat + 65536 - 3) % 256) ∧
    (hearing.audio.lanes[(0 : Lane)].faded = true ∧
      (heard .good false).audio.lanes[(0 : Lane)].faded = false) ∧
    (withLanes LaneTable.allFree #v[.held 6 .auto 1 0 false, .free, .free, .free]
      hearing).lanes.slotCopy[(0 : Lane)].owner ≠ some frame103.src ∧
    hearing.lanes.slotCopy[(1 : Lane)] = .free ∧ hearing.lanes.slotCopy[(0 : Lane)] ≠ .free ∧
    (after (.laneSlotDelivered 0 quiet) (heard .good false)).audio.lanes[0].state = .concealed ∧
    (after (.laneSlotDelivered 0 quiet) hearing).audio.lanes[0].state = .muted ∧
    (after (.laneSlotDelivered 0 quiet) hearing).mix.formingNext = none ∧
    (after (.laneSlotDelivered 0 quiet) { hearing with
      line := { hearing.line with laneSpans := #v[true, false, false, false] } }).mix.formingNext.isSome := by
  refine ⟨by decide +kernel, fun m => by cases m <;> decide +kernel, ?_⟩
  decide +kernel

/-- The second set of the example of 9.2, which saturates. -/
def loudSet : ContributionSet :=
  #v[{ samples := flat 30000, ramp := .unity, isOpen := true, own := false },
    Contribution.zero, { samples := flat 30000, ramp := .unity, isOpen := true, own := false },
    Contribution.zero]

/-- A second cycle start while a set is forming into the playing buffer: its formation still ends, first, and
raises its record (R143). -/
theorem test_displaced_formation :
    let m := ({ base.mix with formingPlaying := some (formation loudSet), formingNext := some (formation mixSet) } : Mix).cycleStart true
    let s := after .mixFormationEnd { base with mix := m }
    m.formingLeft = [loudSet] ∧ m.formingPlaying = some (formation mixSet) ∧ s.mix.formingLeft = [] ∧
      s.mix.formingPlaying = some (formation mixSet) ∧ (s.status.queue.drop 1).map (·.body) = [.clip .mix] := by
  decide +kernel

/-- The three formations. -/
theorem witness_MixIsTheScaledWeightedSum :
    (forming.inReset = false ∧ forming.mix.formingLeft = [] ∧ forming.mix.formingPlaying = none ∧
      forming.mix.formingNext = some (formation mixSet)) ∧
    ({ base.mix with formingLeft := [loudSet] } : Mix).formingLeft ≠ [] ∧
    ({ base with mix := { base.mix with formingPlaying := some (formation mixSet) } } : State).mix.formingPlaying =
      some (formation mixSet) ∧
    (fullMix mixSet 0 = 4691 ∧ mixMinus mixSet 63 = 6892) ∧
    mixSaturates loudSet = true := by decide +kernel

/-- OCLK at its three phases; a frame 95 bit times old, before and after its right slot begins; a buffer whose
set is forming, and one whose set completed at the realigning cycle start. -/
theorem witness_OutputFrameCarriesThePlayingBuffer :
    (base.inReset = false ∧ base.mix.oclk < 12 ∧ base.mix.oclk % 4 = 0 ∧
      base.mix.formingPlaying = none ∧ base.mix.closed = false) ∧
    (after (.outputFrameStart 0) { base with mix := { base.mix with oclk := 8 } }).mix.refAge = 1 ∧
    (after (.outputFrameStart 0) { base with mix := { base.mix with oclk := 4 } }).mix.refAge = 2 ∧
    (after (.outputFrameStart 0) base).mix.refAge = 0 ∧
    (let s := (after (.outputFrameStart 1)
       { base with mix := { base.mix with formingPlaying := some (formation mixSet), closed := true } }).elapse 95
     ∃ f, s.mix.frame = some f ∧ f.right = none ∧ f.age = 95 ∧ f.age ≤ 96) := by
  refine ⟨by decide +kernel, by decide +kernel, by decide +kernel, by decide +kernel, _, rfl, ?_⟩
  decide +kernel

/-! ## Witnesses: keys and status port -/

theorem witness_KeyChangesAtTheFifthSample :
    Key.released.count = 0 ∧
      ([true, true, true, true].foldl (fun k b => Key.sample b k) Key.released).pressed = false ∧
      ([true, true, true, true, true].foldl (fun k b => Key.sample b k) Key.released).pressed = true ∧
      ([true, true, false, true, true].foldl (fun k b => Key.sample b k) Key.released).pressed = false := by
  decide

/-- The head record waits, a record is in transmission, none of either. -/
theorem witness_StatusPortSendsTheHeadRecord :
    (base.inReset = false ∧ base.status.tx = none ∧
      base.status.queue = [{ cycle := 0, body := .started base.keys.straps base.keys.fingerprint }]) ∧
    (after .statusTransmissionStart base).status.tx ≠ none ∧
    (after .statusTransmissionStart base).status.bitClock < 1067 ∧
    (after .statusTransmissionStart base).statusHigh = true ∧
    (after .statusTransmissionStart base).idle.statusHigh = false := by decide +kernel

/-- A queue of `n` records of different keys. -/
def queued (n : Nat) : StatusPort :=
  { StatusPort.reset with
    queue := ((List.finRange 16).map fun a => { cycle := 0, body := .peer a .arriving }).take n }

theorem witness_RecordCoalescesJoinsOrIsLost :
    ((∀ q ∈ (queued 15).queue, sameKey q.body (.mic .fault) = false) ∧ (queued 15).queue.length < 16) ∧
    ((∀ q ∈ (queued 16).queue, sameKey q.body (.mic .fault) = false) ∧ 16 ≤ (queued 16).queue.length) ∧
    ((queued 2).queue = [{ cycle := 0, body := .peer 0 .arriving }] ++
        { cycle := 0, body := .peer 1 .arriving } :: [] ∧
      sameKey (.peer 0 .arriving) (.peer 1 .present) = false ∧
      sameKey (.peer 1 .arriving) (.peer 1 .present) = true) := by decide +kernel

/-! ## Witnesses: invariants, on the LOCKED owner of a lane -/

theorem owner_not_in_reset (P : Prop) : owner.inReset = true → P := by
  have h : owner.inReset = false := by decide +kernel
  rw [h]
  nofun

theorem witness_EveryStepKeepsMembership : owner.Membership ∧ step owner = .next owner.idle := by
  refine ⟨⟨owner_not_in_reset _, ?_, ?_, ?_, ?_⟩, rfl⟩
  · have h : owner.beat.request = .idle := by decide +kernel
    rintro (hw | ⟨c, a, hs⟩)
    · rw [h] at hw; cases hw
    · rw [h] at hs; cases hs
  · unfold State.CandidateSound; decide +kernel
  · unfold State.OwnEntrySound; decide +kernel
  · intro h
    exact absurd (by decide +kernel) h

theorem witness_EveryStepKeepsLaneTablesLegal : owner.TablesSound ∧ step owner = .next owner.idle :=
  ⟨⟨owner_not_in_reset _, owner_legal, ⟨by decide +kernel, by decide +kernel⟩, by decide +kernel⟩, rfl⟩

theorem witness_EveryStepKeepsTheStatusQueueBounded :
    owner.status.Sound ∧ step owner = .next owner.idle :=
  ⟨⟨by decide +kernel, by decide +kernel⟩, rfl⟩

/-- The owner while the transmitter reads its frame. -/
def transmitting : State :=
  { owner with
    audio := { owner.audio with tx := some ownFrame }
    arbiter := { write := true, reads := transmitterReads 1 } }

theorem witness_EveryStepKeepsTheReadsSound :
    transmitting.ReadsSound ∧ step transmitting = .next transmitting.idle :=
  ⟨⟨by decide +kernel, by decide +kernel, by decide +kernel, fun _ _ _ => rfl⟩, rfl⟩

theorem witness_EveryStepKeepsTheDetectorSound :
    owner.detector.Sound ∧ owner.detector.Published ∧ step owner = .next owner.idle :=
  ⟨⟨by decide +kernel, by decide +kernel, by decide +kernel, by decide +kernel, by decide +kernel⟩, ⟨rfl, rfl⟩, rfl⟩

theorem witness_EveryStepKeepsCountersInRange :
    owner.HeldInReset ∧ owner.CountersInRange ∧ step owner = .next owner.idle := by
  refine ⟨owner_not_in_reset _, ?_, rfl⟩
  constructor
  case peers => intro a; fin_cases a <;> exact ⟨rfl, rfl⟩
  all_goals decide +kernel

end Sys2Proof.Tests
end

/-! SUPPORT. What the measures of the speech detector (2.2) compute, and the proofs of its two statements. -/

namespace Sys2Proof.Machine

theorem vector_toList_eq_ofFn {α : Type} {n : Nat} (v : Vector α n) :
    v.toList = List.ofFn fun i : Fin n => v[i] := by
  apply List.ext_getElem <;> simp

/-! ## The level (R19) -/

theorem sumSquares_eq_sum (f : Frame) :
    (sumSquares f : Int) = ∑ i : Fin 64, f[i].toInt * f[i].toInt := by
  have hsum : sumSquares f = ∑ i : Fin 64, f[i].toInt.natAbs * f[i].toInt.natAbs := by
    rw [sumSquares, ← List.foldl_map (f := fun x : Sample => x.toInt.natAbs * x.toInt.natAbs),
      ← List.sum_eq_foldl, vector_toList_eq_ofFn, List.map_ofFn, List.sum_ofFn]
    rfl
  rw [hsum, Nat.cast_sum]
  exact Finset.sum_congr rfl fun i _ => Int.natAbs_mul_self

/-- The relative mean-square power in half decibels, to be rounded by adding a half and taking the floor. -/
noncomputable def halfDecibels (sum : Nat) : ℝ :=
  255 + 20 * Real.logb 10 ((sum : ℝ) / 64 / 1073741824)

/-- The integer comparison of `levelAtLeast`, with its denominators back in place. -/
theorem levelAtLeast_iff_rpow_le {n : Nat} (sum : Nat) (hn : n ≤ 255) :
    levelAtLeast sum n = true ↔
      (10 : ℝ) ^ (2 * n - 511 : ℝ) ≤ ((sum : ℝ) / 64 / 1073741824) ^ 40 := by
  have hexp : (2 * n - 511 : ℝ) = -((511 - 2 * n : ℕ) : ℝ) := by
    rw [Nat.cast_sub (by omega)]
    push_cast
    ring
  have hpow : ((sum : ℝ) / 64 / 1073741824) ^ 40 = (sum : ℝ) ^ 40 / 2 ^ 1440 := by
    rw [div_div, div_pow, show (64 * 1073741824 : ℝ) = 2 ^ 36 by norm_num, ← pow_mul]
  have hcast : 2 ^ 1440 ≤ sum ^ 40 * 10 ^ (511 - 2 * n) ↔
      (2 : ℝ) ^ 1440 ≤ (sum : ℝ) ^ 40 * 10 ^ (511 - 2 * n) := by
    exact_mod_cast Iff.rfl
  rw [levelAtLeast, decide_eq_true_iff, hcast, hexp, hpow, Real.rpow_neg (by norm_num),
    Real.rpow_natCast, le_div_iff₀ (by positivity), inv_mul_le_iff₀ (by positivity), mul_comm]

/-- `levelAtLeast` is the comparison with the rounded logarithm. -/
theorem levelAtLeast_iff_le_floor {sum n : Nat} (hsum : 0 < sum) (hn : n ≤ 255) :
    levelAtLeast sum n = true ↔ (n : Int) ≤ ⌊halfDecibels sum + 1 / 2⌋ := by
  have hpos : (0 : ℝ) < (sum : ℝ) / 64 / 1073741824 := by positivity
  rw [levelAtLeast_iff_rpow_le sum hn, ← Real.le_logb_iff_rpow_le (by norm_num) (by positivity),
    Real.logb_pow, Int.le_floor, halfDecibels]
  push_cast
  constructor <;> intro h <;> linarith

theorem levelOfSum_zero : levelOfSum 0 = 0 := by
  refine List.countP_eq_zero.2 fun i _ => ?_
  rw [levelAtLeast, zero_pow (by decide), zero_mul, decide_eq_true_iff, not_le]
  exact pow_pos two_pos _

/-- Counting the numbers from 1 to `n` up to `k` clamps `k` to 0 to `n`. -/
theorem countP_range_succ_le (k : Int) (n : Nat) :
    (((List.range n).countP fun i : Nat => decide ((i : Int) + 1 ≤ k) : Nat) : Int) =
      max 0 (min (n : Int) k) := by
  induction n with
  | zero => simp
  | succ n ih =>
    rw [List.range_succ, List.countP_append, List.countP_singleton, Nat.cast_add, ih]
    simp only [decide_eq_true_iff]
    split <;> omega

theorem levelOfSum_eq_clamp {sum : Nat} (hsum : 0 < sum) :
    (levelOfSum sum : Int) = max 0 (min 255 ⌊halfDecibels sum + 1 / 2⌋) := by
  have hreach : ∀ i ∈ List.range 255, (levelAtLeast sum (i + 1) = true ↔
      decide ((i : Int) + 1 ≤ ⌊halfDecibels sum + 1 / 2⌋) = true) := fun i hi => by
    rw [levelAtLeast_iff_le_floor hsum (List.mem_range.1 hi), decide_eq_true_iff]
    push_cast
    rfl
  rw [levelOfSum, List.countP_congr hreach, countP_range_succ_le]
  rfl

/-- Settles O10: the level counts the half-decibel steps that the frame reaches, so it is the rounded
logarithm clamped to 0 to 255. -/
theorem levelIsRoundedLogarithm : Obligations.LevelIsRoundedLogarithm := by
  intro f sum
  have hsum : (sumSquares f : Int) = sum := sumSquares_eq_sum f
  rw [← hsum]
  constructor
  · intro h0
    rw [level, Int.natCast_eq_zero.1 h0, levelOfSum_zero]
  · intro hne
    exact levelOfSum_eq_clamp (Nat.pos_of_ne_zero (Int.natCast_ne_zero.1 hne))

/-! ## Zero crossings (R20) -/

/-- A sample of 0 counts as positive: the sign bit says whether the value is below 0. -/
theorem signs_differ_iff (x y : Sample) :
    (x.msb != y.msb) = true ↔ decide (y.toInt < 0) ≠ decide (x.toInt < 0) := by
  rw [bne_iff_ne, BitVec.msb_eq_toInt, BitVec.msb_eq_toInt, ne_comm]

theorem signChanges_ofFn {n : Nat} (g : Fin (n + 1) → Sample) :
    signChanges (List.ofFn g) = (Finset.univ.filter fun i : Fin n =>
      decide ((g i.succ).toInt < 0) ≠ decide ((g i.castSucc).toInt < 0)).card := by
  induction n with
  | zero => simp [signChanges]
  | succ n ih =>
    have htail := ih fun i => g i.succ
    rw [List.ofFn_succ] at htail
    rw [List.ofFn_succ, List.ofFn_succ, signChanges, htail, Fin.card_filter_univ_succ']
    simp only [signs_differ_iff]
    rfl

/-- Settles O11, by induction on the length of the list of samples. -/
theorem zeroCrossingsCountSignChanges : Obligations.ZeroCrossingsCountSignChanges := by
  intro f
  have hcount := signChanges_ofFn fun i : Fin 64 => f[i]
  rw [← vector_toList_eq_ofFn] at hcount
  refine ⟨hcount, ?_⟩
  rw [zeroCrossings, hcount]
  exact (Finset.card_le_univ _).trans_eq (Fintype.card_fin 63)

end Sys2Proof.Machine

/-! SUPPORT. The grants of stages 5 and 6 (6.6): the admitted lanes in ascending order, each paired with its
claim, and the proof of their statement. -/

namespace Sys2Proof.Machine

/-- The lanes of a list that `ok` admits on the table as it stands before any grant. -/
def admittedLanes (ok : Lane → LaneEntry → Bool) (ls : List Lane) (t : LaneTable) : List Lane :=
  ls.filter fun l => ok l t[l]

/-- A table with the lane of each pair given to the claim of the pair. -/
def grantPairs (t : LaneTable) (ps : List (Lane × Claim)) : LaneTable :=
  ps.foldl (fun u p => put u p.1 (grantTo p.2)) t

/-- A grant leaves it open for which of the lanes still to be visited `ok` admits. -/
theorem admittedLanes_put_of_notMem (ok : Lane → LaneEntry → Bool) {ls : List Lane} {l : Lane}
    (hl : l ∉ ls) (t : LaneTable) (e : LaneEntry) :
    admittedLanes ok ls (put t l e) = admittedLanes ok ls t := by
  refine List.filter_congr fun k hk => ?_
  rw [put_get_ne _ _ (ne_of_mem_of_not_mem hk hl).symm]

/-- Grants pair the admitted lanes, in their order, with the first claims, although each lane is looked at
only when the grants before it are made. -/
theorem giveLanes_eq_grantPairs (ok : Lane → LaneEntry → Bool) {ls : List Lane} (hls : ls.Nodup)
    (t : LaneTable) (cs : List Claim) :
    giveLanes ok ls t cs = (grantPairs t ((admittedLanes ok ls t).zip cs),
      cs.drop (admittedLanes ok ls t).length) := by
  induction ls generalizing t cs with
  | nil => rfl
  | cons l ls ih =>
    obtain ⟨hl, hrest⟩ := List.nodup_cons.mp hls
    cases cs with
    | nil => simp [giveLanes, grantPairs]
    | cons c cs =>
      rw [giveLanes]
      split
      · next hok =>
        have hadm : admittedLanes ok (l :: ls) t = l :: admittedLanes ok ls t :=
          List.filter_cons_of_pos hok
        rw [ih hrest, admittedLanes_put_of_notMem ok hl, hadm]
        rfl
      · next hok =>
        have hadm : admittedLanes ok (l :: ls) t = admittedLanes ok ls t :=
          List.filter_cons_of_neg hok
        rw [ih hrest, hadm]

theorem grantPairs_get_of_notMem {ps : List (Lane × Claim)} {l : Lane} (t : LaneTable)
    (hl : ∀ c, (l, c) ∉ ps) : (grantPairs t ps)[l] = t[l] := by
  induction ps generalizing t with
  | nil => rfl
  | cons p ps ih =>
    have hne : p.1 ≠ l := by
      rintro rfl
      exact hl p.2 List.mem_cons_self
    calc (grantPairs t (p :: ps))[l] = (put t p.1 (grantTo p.2))[l] :=
          ih _ fun c hc => hl c (List.mem_cons_of_mem p hc)
      _ = t[l] := put_get_ne t _ hne

/-- No later grant takes a lane back, as no two pairs are for one lane. -/
theorem grantPairs_get_of_mem {ps : List (Lane × Claim)} {l : Lane} {c : Claim} (t : LaneTable)
    (hps : (ps.map Prod.fst).Nodup) (hl : (l, c) ∈ ps) : (grantPairs t ps)[l] = grantTo c := by
  induction ps generalizing t with
  | nil => exact absurd hl List.not_mem_nil
  | cons p ps ih =>
    obtain ⟨hp, hrest⟩ := List.nodup_cons.mp hps
    rcases List.mem_cons.mp hl with rfl | hl
    · calc (grantPairs t ((l, c) :: ps))[l] = (put t l (grantTo c))[l] :=
            grantPairs_get_of_notMem (ps := ps) (put t l (grantTo c)) fun _ hc =>
              hp (List.mem_map.mpr ⟨_, hc, rfl⟩)
        _ = grantTo c := put_get_self t l _
    · exact ih _ hrest hl

theorem nodup_map_fst_zip {α β : Type} {xs : List α} (hxs : xs.Nodup) (ys : List β) :
    ((xs.zip ys).map Prod.fst).Nodup := by
  rw [List.zip_eq_zip_take_min, List.map_fst_zip (by simp)]
  exact hxs.sublist (List.take_sublist _ _)

/-! ## What grants do, on lanes listed once -/

section
variable (ok : Lane → LaneEntry → Bool) {ls : List Lane} (t : LaneTable) (cs : List Claim)

theorem giveLanes_claims_left (hls : ls.Nodup) :
    (giveLanes ok ls t cs).2 = cs.drop (admittedLanes ok ls t).length := by
  rw [giveLanes_eq_grantPairs ok hls]

/-- The admitted lane of place `k` goes to the claim of place `k`. -/
theorem giveLanes_get_of_admitted (hls : ls.Nodup) {k : Nat} {l : Lane} {c : Claim}
    (hl : (admittedLanes ok ls t)[k]? = some l) (hc : cs[k]? = some c) :
    (giveLanes ok ls t cs).1[l] = grantTo c := by
  rw [giveLanes_eq_grantPairs ok hls]
  refine grantPairs_get_of_mem t (nodup_map_fst_zip (hls.filter _) cs) ?_
  exact List.mem_of_getElem? (List.getElem?_zip_eq_some.mpr ⟨hl, hc⟩)

/-- A lane that is not admitted, or whose place lies past the last claim, stays. -/
theorem giveLanes_get_of_no_claim (hls : ls.Nodup) {l : Lane}
    (hl : ∀ k : Nat, (admittedLanes ok ls t)[k]? = some l → cs[k]? = none) :
    (giveLanes ok ls t cs).1[l] = t[l] := by
  rw [giveLanes_eq_grantPairs ok hls]
  refine grantPairs_get_of_notMem t fun c hc => ?_
  obtain ⟨k, hk⟩ := List.mem_iff_getElem?.mp hc
  obtain ⟨hlane, hclaim⟩ := List.getElem?_zip_eq_some.mp hk
  rw [hl k hlane] at hclaim
  cases hclaim

end

/-! ## Stages 5 and 6 -/

/-- The lanes that stage 5 admits (R95). -/
def isFreeBelow (m : Nat) (l : Lane) (e : LaneEntry) : Bool := decide (l.val < m) && e.isFree

/-- The lanes that stage 6 admits (R96). -/
def isHeldByIdle (_ : Lane) (e : LaneEntry) : Bool := e.isHeld && e.idle

theorem stage5_eq_giveLanes (m : Nat) (t : LaneTable) (cs : List Claim) :
    stage5 m t cs = giveLanes (isFreeBelow m) (List.finRange 4) t cs := rfl

theorem stage6_eq_giveLanes (t : LaneTable) (cs : List Claim) :
    stage6 t cs = giveLanes isHeldByIdle (List.finRange 4) t cs := rfl

/-- Settles O41: both stages are grants over the lanes 0 to 3, each listed once, so the admitted lanes pair
off with the first claims. -/
theorem freeLanesGoToTheFirstClaims : Obligations.FreeLanesGoToTheFirstClaims := by
  intro m t cs
  have hlanes : (List.finRange 4).Nodup := List.nodup_finRange 4
  rw [stage5_eq_giveLanes, stage6_eq_giveLanes]
  exact ⟨giveLanes_claims_left (isFreeBelow m) t cs hlanes,
    fun _ _ _ => giveLanes_get_of_admitted (isFreeBelow m) t cs hlanes,
    fun _ => giveLanes_get_of_no_claim (isFreeBelow m) t cs hlanes,
    giveLanes_claims_left isHeldByIdle t cs hlanes,
    fun _ _ _ => giveLanes_get_of_admitted isHeldByIdle t cs hlanes,
    fun _ => giveLanes_get_of_no_claim isHeldByIdle t cs hlanes⟩

end Sys2Proof.Machine

/-! SUPPORT. Times add up: the passing of time, block by block. -/

namespace Sys2Proof.Machine

/-! ## Time at the bank arbiter (R10) -/

/-- A read seen `m` bit times later. -/
def BankRead.later (m : Nat) (r : BankRead) : BankRead := { r with due := r.due - m }

theorem BankRead.grantedAt_later (m t : Nat) (r : BankRead) :
    (r.later m).grantedAt (t - opportunities * m) = r.grantedAt t - opportunities * m := by
  simp only [BankRead.grantedAt, BankRead.later, opportunities]
  omega

/-- Once the first `m` bit times are over, the grants that follow fall as much later. -/
theorem serve_later (m n t : Nat) (ht : opportunities * m ≤ t) (rs : List BankRead) :
    serve (opportunities * n) (t - opportunities * m) (rs.map (BankRead.later m)) =
      (serve (opportunities * (m + n)) t rs).map (BankRead.later m) := by
  induction rs generalizing t with
  | nil => rfl
  | cons r rest ih =>
    have hg : t ≤ r.grantedAt t := le_max_left _ _
    rw [List.map_cons, serve, serve, BankRead.grantedAt_later]
    by_cases h : r.grantedAt t < opportunities * (m + n)
    · rw [if_pos h, if_pos (by rw [Nat.mul_add] at h; omega), ← ih _ (by omega)]
      congr 1
      omega
    · rw [if_neg h, if_neg (by rw [Nat.mul_add] at h; omega)]
      rfl

/-- Reads served for `m` and then for `n` bit times are served for `m + n`. -/
theorem serve_serve (m n t : Nat) (ht : t ≤ opportunities * m) (rs : List BankRead) :
    serve (opportunities * n) 0 ((serve (opportunities * m) t rs).map (BankRead.later m)) =
      (serve (opportunities * (m + n)) t rs).map (BankRead.later m) := by
  induction rs generalizing t with
  | nil => rfl
  | cons r rest ih =>
    by_cases h : r.grantedAt t < opportunities * m
    · have hl : r.grantedAt t < opportunities * (m + n) := by rw [Nat.mul_add]; omega
      rw [serve, if_pos h, ih _ h]
      conv_rhs => rw [serve, if_pos hl]
    · have heq : max t (opportunities * m) - opportunities * m = 0 := by omega
      have hfirst : r.grantedAt (max t (opportunities * m)) = r.grantedAt t := by
        simp only [BankRead.grantedAt] at h ⊢
        omega
      rw [serve, if_neg h, ← heq, serve_later m n _ (le_max_right _ _), serve, serve, hfirst]

theorem Arbiter.elapse_zero (a : Arbiter) : a.elapse 0 = a := by
  have hserve : ∀ t rs, serve 0 t rs = rs := fun t rs => by cases rs <;> simp [serve]
  rcases a with ⟨w, rs⟩
  simp [Arbiter.elapse, hserve]

theorem Arbiter.elapse_elapse (m n : Nat) (a : Arbiter) : (a.elapse m).elapse n = a.elapse (m + n) := by
  rcases Nat.eq_zero_or_pos m with rfl | hm
  · rw [Arbiter.elapse_zero, Nat.zero_add]
  · have ht : a.write.toNat ≤ opportunities * m := by
      have := Bool.toNat_le a.write
      simp only [opportunities]
      omega
    have hw : (a.elapse m).write = false := by simp [show m ≠ 0 by omega]
    have hreads : (a.elapse m).reads =
        (serve (opportunities * m) a.write.toNat a.reads).map (BankRead.later m) := rfl
    have hadd : ∀ r : BankRead, (r.later m).later n = r.later (m + n) := fun r => by
      simp only [BankRead.later]
      congr 1
      push_cast
      omega
    have hsum : m + n ≠ 0 := by omega
    rw [Arbiter.elapse, hw, hreads, Bool.toNat_false, serve_serve m n _ ht, Arbiter.elapse]
    simp only [Bool.false_and, hsum, decide_false, Bool.and_false, Arbiter.mk.injEq, true_and]
    exact List.map_map.trans (List.map_congr_left fun r _ => hadd r)

/-! ## Time at the other blocks -/

theorem Beat.elapse_elapse (m n : Nat) (b : Beat) : (b.elapse m).elapse n = b.elapse (m + n) := by
  rcases b with ⟨sync, timer, cycle, holder, rank, cand, hc, barred, failures, coldStart, oc, ec, fb, wo,
    request, ta⟩
  cases request <;> cases coldStart <;> simp [Beat.elapse, Nat.add_assoc, Nat.sub_sub]

theorem Line.elapse_elapse (m n : Nat) (l : Line) : (l.elapse m).elapse n = l.elapse (m + n) := by
  rcases l with ⟨tx, stopped, candidate, quiet, free, reports, lanes⟩
  cases tx <;> cases candidate <;> simp [Line.elapse, Nat.add_assoc] <;> omega

/-- What a channel slot sends that starts later, once the time has passed. -/
theorem Mix.slotSample_elapse (channel : Buffer → Frame) (n later : Nat) (k : Fin 64) (m : Mix) :
    (m.elapse n).slotSample channel later k = m.slotSample channel (n + later) k := by
  rcases h : m.formingPlaying with _ | f
  · simp only [Mix.slotSample, Mix.elapse, h, Option.map_none]
  · simp only [Mix.slotSample, Mix.elapse, h, Option.map_some, Formation.formed_elapse]
    rfl

theorem Mix.rightAfter_elapse (m n : Nat) (x : Mix) (f : OutFrame) :
    (x.elapse m).rightAfter n { f with age := f.age + m, right := x.rightAfter m f } =
      x.rightAfter (m + n) f := by
  rcases hr : f.right with _ | v
  · by_cases h : rightSlotAt ≤ f.age + m
    · have h' : rightSlotAt ≤ f.age + (m + n) := by omega
      simp [Mix.rightAfter, hr, h, h']
    · have hage : f.age + m + n = f.age + (m + n) := by omega
      have hlater : m + (rightSlotAt - (f.age + m)) = rightSlotAt - f.age := by omega
      simp only [Mix.rightAfter, hr, h, if_false, hage, Mix.slotSample_elapse, hlater]
  · simp [Mix.rightAfter, hr]

theorem Mix.elapse_elapse (m n : Nat) (x : Mix) : (x.elapse m).elapse n = x.elapse (m + n) := by
  have hf : ∀ o : Option Formation,
      (o.map (Formation.elapse m)).map (Formation.elapse n) = o.map (Formation.elapse (m + n)) := by
    intro o
    cases o <;> simp [Formation.elapse, Nat.add_assoc]
  have hframe : ((x.elapse m).elapse n).frame = (x.elapse (m + n)).frame := by
    rcases h : x.frame with _ | f
    · simp [Mix.elapse, h]
    · have := x.rightAfter_elapse m n f
      simp only [Mix.elapse, h, Option.map_some, Option.some.injEq, OutFrame.mk.injEq, true_and]
      exact ⟨this, Nat.add_assoc ..⟩
  have hoclk : ((x.oclk + 4 * m) % 12 + 4 * n) % 12 = (x.oclk + 4 * (m + n)) % 12 := by omega
  have hrest : (x.elapse m).elapse n =
      { x.elapse (m + n) with frame := ((x.elapse m).elapse n).frame } := by
    simp only [Mix.elapse, hoclk, hf, Nat.add_assoc]
  rw [hrest, hframe]

/-- Times add up (log entry 7). -/
theorem State.elapse_elapse (m n : Nat) (s : State) : (s.elapse m).elapse n = s.elapse (m + n) := by
  simp only [State.elapse, Arbiter.elapse_elapse, Beat.elapse_elapse, Line.elapse_elapse,
    Mix.elapse_elapse, StatusPort.elapse, Nat.mul_add, Nat.add_assoc]

end Sys2Proof.Machine

/-! SUPPORT. What a command can do, said once: the effects that a command can have once the time up to its
instant has passed, and that every command has one of them. -/

namespace Sys2Proof.Machine

/-! ## The detector's wait for its last read (R10, R16) -/

theorem lt_serveTime_of_mem {reader : Reader} {rs : List BankRead} {r : BankRead} (t : Nat) (hr : r ∈ rs)
    (hreader : r.reader = reader) : t < serveTime reader t rs := by
  induction rs generalizing t with
  | nil => exact absurd hr List.not_mem_nil
  | cons x rest ih =>
    have hg : t ≤ x.grantedAt t := le_max_left _ _
    rw [serveTime]
    rcases List.mem_cons.mp hr with rfl | hmem
    · rw [if_pos hreader]
      omega
    · have := ih (x.grantedAt t + 1) hmem
      omega

/-- No read of a reader waits any more when its serving time has passed. -/
theorem reader_ne_of_mem_serve {reader : Reader} {limit t : Nat} {rs : List BankRead}
    (hlimit : serveTime reader t rs ≤ limit) : ∀ r ∈ serve limit t rs, r.reader ≠ reader := by
  induction rs generalizing t with
  | nil => intro r hr; cases hr
  | cons x rest ih =>
    rw [serveTime] at hlimit
    rw [serve]
    split
    · exact ih (by omega)
    · next hx =>
      intro r hr hreader
      rcases List.mem_cons.mp hr with rfl | hmem
      · rw [if_pos hreader] at hlimit
        omega
      · have := lt_serveTime_of_mem (x.grantedAt t + 1) hmem hreader
        omega

/-- After the detector's wait its frame is read. -/
theorem Arbiter.detectorWait_spec (a : Arbiter) :
    ∀ r ∈ (a.elapse a.detectorWait).reads, r.reader ≠ .detector := by
  intro r hr
  obtain ⟨x, hx, rfl⟩ := List.mem_map.mp hr
  refine reader_ne_of_mem_serve ?_ x hx
  simp only [Arbiter.detectorWait, opportunities]
  omega

/-! ## Cycle starts -/

/-- `u` leads to the cycle start `cs` in state `v`: what the beat unit has changed by then, and which changes
of sync state a cycle start makes (R49 to R54, R63). -/
structure State.LeadsTo (u v : State) (cs : CycleStart) (rejoins : Bool) : Prop where
  frame : v = { u with beat := v.beat, line := v.line, census := v.census }
  syncKept : v.beat.sync = u.beat.sync
  barredKept : v.beat.barred = u.beat.barred
  request : v.beat.request = u.beat.request ∨ v.beat.request = .idle
  failures : v.beat.failures = 0 ∨ v.beat.failures = u.beat.failures ∨
    (v.beat.failures = u.beat.failures + 1 ∧ (v.beat.failures < 3 ∨ rejoins = true))
  observation : v.beat.obsCount = u.beat.obsCount ∨ v.beat.obsCount = 0
  entering : v.beat.entCount = u.beat.entCount
  tx : v.line.tx = u.line.tx ∨ v.line.tx = (u.line.release .beat).tx
  beatQuiet : v.line.beatQuiet = u.line.beatQuiet ∨ v.line.beatQuiet = 0
  census : v.census = { u.census with ownCollisions := v.census.ownCollisions }
  ownCollisions : v.census.ownCollisions = u.census.ownCollisions ∨ v.census.ownCollisions = 0
  moves : cs.sync = u.beat.sync ∨
    (u.beat.sync = .listen ∧ cs.sync = .aligning ∧ v.beat.request = .idle) ∨
    (u.beat.sync = .aligning ∧ (cs.sync = .observing ∨ cs.sync = .listen)) ∨
    (cs.sync = .locked ∧ v.beat.request = .idle ∧
      ∃ cycle age, u.beat.request = .sending .founding cycle age)
  rejoinKeeps : rejoins = true → cs.sync = u.beat.sync

/-- Each case of a good beat taken by the beat unit leads to a cycle start (R49 to R51). -/
theorem State.takeBeat_leadsTo (u : State) (cycle : BitVec 16) (age : Nat) (keys : KeyPins) :
    ∃ v cs, u.dropCandidate.takeBeat cycle age keys = v.cycleStart cs false ∧ u.LeadsTo v cs false := by
  unfold State.takeBeat
  split
  · next hlisten =>
    refine ⟨_, _, rfl, ⟨rfl, rfl, rfl, .inr rfl, .inl rfl, .inl rfl, rfl, .inl rfl, .inr rfl, rfl, .inl rfl,
      .inr (.inl ⟨hlisten, rfl, rfl⟩), nofun⟩⟩
  · dsimp only
    split
    · refine ⟨_, _, rfl, ⟨rfl, rfl, rfl, .inl rfl, .inl rfl, ?_, rfl, .inl rfl, .inr rfl, rfl, .inl rfl,
        ?_, nofun⟩⟩
      · dsimp only
        split
        · exact .inr rfl
        · exact .inl rfl
      · dsimp only
        split
        · next hconf =>
          simp only [Bool.and_eq_true, decide_eq_true_iff] at hconf
          exact .inr (.inr (.inl ⟨hconf.1.1, .inl rfl⟩))
        · exact .inl rfl
    · exact ⟨_, _, rfl, ⟨rfl, rfl, rfl, .inl rfl, .inl rfl, .inl rfl, rfl, .inl rfl, .inr rfl, rfl, .inl rfl,
        .inl rfl, nofun⟩⟩

/-! ## The effects of commands -/

/-- The own report slot: the request is evaluated, the report sent in the sync states that report. -/
def State.ownReportSlot (s : State) : State :=
  (if s.evaluateRequest.1.beat.sync.reports then s.evaluateRequest.1.sendReport
    else s.evaluateRequest.1).raise s.evaluateRequest.2

/-- The effects that a command can have in state `u`, outside hardware reset. -/
inductive State.Acts (u : State) : State → Prop where
  | nothing : u.Acts u
  | sampleTaken (k : Fin 64) : u.Acts { u with
      capture := u.capture.takeSample u.keys.straps.gain k, arbiter := u.arbiter.raiseWrite }
  | pdmSampled (level : Bool) : u.Acts { u with capture := u.capture.pdmSample level }
  | cycleStarted {v : State} {cs : CycleStart} {rejoins : Bool} (h : u.LeadsTo v cs rejoins) :
      u.Acts (v.cycleStart cs rejoins)
  | waitOpened : u.Acts { u with beat := { u.beat with waitOpen := true } }
  | takerFixed (position : Nat) : u.Acts { u with beat := { u.beat with takerAt := some position } }
  | beatRequested (kind : BeatKind) (coldStart takerAt : Option Nat)
      (h : kind = .founding → u.beat.sync = .listen) :
      u.Acts (({ u with beat := { u.beat with coldStart := coldStart, takerAt := takerAt } } : State).requestBeat
        kind)
  | beatDeferred (kind : BeatKind) : u.Acts (u.startBeat kind)
  | candidateFound : u.Acts { u with line := { u.line with candidate := some 0 } }
  | candidateDropped : u.Acts u.dropCandidate
  | beatRefounded : u.Acts u.endBeat.refound
  | beatBarred : u.Acts u.endBeat.bar
  | beatEnded : u.Acts { u.endBeat with beat := { u.endBeat.beat with failures := 0 } }
  | published (p : Processing) (h : u.detector.processing = some p)
      (hread : ∀ r ∈ u.arbiter.reads, r.reader ≠ .detector) : u.Acts (u.publish p)
  | ownReport : u.Acts u.ownReportSlot
  | reportEnded (o : Readback) : u.Acts { u with
      census := { u.census with reportTx := none, readback := some o }, line := u.line.release .report }
  | reportReceived (slot : Addr) (rx : SlotRx) : u.Acts (u.receiveReport slot rx)
  | laneStarted (lane : Lane) (h : u.sendsLane lane = true) : u.Acts (u.startLane lane)
  | stoppedLaneEnded (rest : List (List Bool)) (o : Readback) :
      u.Acts (({ u with line := { u.line with stopped := rest } } : State).takeLaneOutcome o)
  | laneEnded (o : Readback) : u.Acts (u.endLane.takeLaneOutcome o)
  | laneReceived (lane : Lane) (rx : SlotRx) : u.Acts (u.receiveLane lane rx).handSet
  | mixFormed : u.Acts (({ u with mix := u.mix.endFormation.1 } : State).raise
      (mixRecords u.mix.endFormation.2))
  | frameStarted (k : Fin 64) : u.Acts { u with mix := u.mix.startFrame k }
  | censusClosed (h : u.beat.sync.receives = true) : u.Acts u.censusClose
  | recordStarted (start : Nat) : u.Acts { u with status := u.status.startTx start }
  | recordEnded (x : StatusTx) : u.Acts { u with status := u.status.endTx x }

/-- The state under hardware reset, with the model's own counter and the waiting commands of `s`. -/
abbrev State.resetOf (s : State) : State :=
  { State.reset with cycleStarts := s.cycleStarts, pending := s.pending }

/-- A command has its effect at once, or once some time has passed. -/
def State.ActsInTime (s t : State) : Prop := s.Acts t ∨ ∃ n, (s.elapse n).Acts t

theorem State.actsInTime_self (s : State) : s.ActsInTime s := .inl .nothing

theorem State.actsInTime_elapse (n : Nat) (s : State) : s.ActsInTime (s.elapse n) := .inr ⟨n, .nothing⟩

theorem State.ActsInTime.ite {s a b : State} {p : Prop} [Decidable p] (ha : p → s.ActsInTime a)
    (hb : ¬ p → s.ActsInTime b) : s.ActsInTime (if p then a else b) := by
  split
  · next h => exact ha h
  · next h => exact hb h

theorem pdmDataSample_acts (s : State) (level : Bool) :
    ∃ t, exec (.pdmDataSample level) s = .next t ∧ s.ActsInTime t := by
  refine ⟨_, rfl, ?_⟩
  split
  · exact .inl (.pdmSampled level)
  · exact s.actsInTime_self

section Commands
variable {s : State} (hr : s.inReset = false)
include hr

theorem cycleTimerExpiry_acts (keys : KeyPins) :
    ∃ t, exec (.cycleTimerExpiry keys) s = .next t ∧ s.ActsInTime t := by
  refine ⟨_, rfl, ?_⟩
  rw [if_neg (by simp [hr])]
  split
  · next hsync =>
    exact .inr ⟨_, .cycleStarted ⟨rfl, rfl, rfl, .inl rfl, .inr (.inl rfl), .inl rfl, rfl, .inl rfl, .inl rfl,
      rfl, .inl rfl, .inl hsync.symm, nofun⟩⟩
  · exact s.actsInTime_self

theorem coldStartExpiry_acts : ∃ t, exec .coldStartExpiry s = .next t ∧ s.ActsInTime t := by
  refine ⟨_, rfl, ?_⟩
  rw [if_neg (by simp [hr])]
  split
  · next left hsync _ =>
    exact .inr ⟨left, .beatRequested .founding none _ fun _ => hsync⟩
  · exact s.actsInTime_self

theorem beatWaitOpen_acts : ∃ t, exec .beatWaitOpen s = .next t ∧ s.ActsInTime t := by
  refine ⟨_, rfl, ?_⟩
  rw [if_neg (by simp [hr])]
  split
  · exact s.actsInTime_self
  · exact .inr ⟨_, .waitOpened⟩

theorem holderBeatRequest_acts : ∃ t, exec .holderBeatRequest s = .next t ∧ s.ActsInTime t := by
  refine ⟨_, rfl, ?_⟩
  rw [if_neg (by simp [hr])]
  split
  · exact .inr ⟨_, .beatRequested .holder _ _ nofun⟩
  · exact s.actsInTime_self

theorem takerDecision_acts : ∃ t, exec .takerDecision s = .next t ∧ s.ActsInTime t := by
  refine ⟨_, rfl, ?_⟩
  rw [if_neg (by simp [hr])]
  split
  · exact s.actsInTime_self
  · split
    · exact .inr ⟨_, .takerFixed _⟩
    · exact s.actsInTime_self

theorem takerBeatStart_acts : ∃ t, exec .takerBeatStart s = .next t ∧ s.ActsInTime t := by
  refine ⟨_, rfl, ?_⟩
  rw [if_neg (by simp [hr])]
  split
  · exact s.actsInTime_self
  · exact .inr ⟨_, .beatRequested .taker _ none nofun⟩

theorem deferredBeatStart_acts : ∃ t, exec .deferredBeatStart s = .next t ∧ s.ActsInTime t := by
  refine ⟨_, rfl, ?_⟩
  rw [if_neg (by simp [hr])]
  split
  · exact .inr ⟨1, .beatDeferred _⟩
  · exact s.actsInTime_self

theorem goodBeatDelivered_acts (word : BitVec 32) (keys : KeyPins) :
    ∃ t, exec (.goodBeatDelivered word keys) s = .next t ∧ s.ActsInTime t := by
  refine ⟨_, rfl, ?_⟩
  rw [if_neg (by simp [hr])]
  split
  · exact s.actsInTime_self
  · next age _ =>
    dsimp only
    split
    · exact .inr ⟨_, .candidateDropped⟩
    · exact .inr ⟨_, .candidateDropped⟩
    · next cycle _ _ =>
      obtain ⟨v, cs, heq, h⟩ := (s.elapse (beatBits - age)).takeBeat_leadsTo cycle (max age beatBits) keys
      rw [heq]
      exact .inr ⟨_, .cycleStarted h⟩

theorem beatCandidateDropped_acts (word : BitVec 32) :
    ∃ t, exec (.beatCandidateDropped word) s = .next t ∧ s.ActsInTime t := by
  refine ⟨_, rfl, ?_⟩
  rw [if_neg (by simp [hr])]
  split
  · exact s.actsInTime_self
  · split
    · exact s.actsInTime_self
    · exact .inr ⟨_, .candidateDropped⟩

theorem beatCandidateFound_acts (position recessive : Nat) :
    ∃ t, exec (.beatCandidateFound position recessive) s = .next t ∧ s.ActsInTime t := by
  refine ⟨_, rfl, ?_⟩
  rw [if_neg (by simp [hr])]
  exact .ite (fun _ => .inr ⟨_, .candidateFound⟩) fun _ => s.actsInTime_elapse _

theorem beatReadbackOutcome_acts (read : BitVec 32) (keys : KeyPins) :
    ∃ t, exec (.beatReadbackOutcome read keys) s = .next t ∧ s.ActsInTime t := by
  refine ⟨_, rfl, ?_⟩
  rw [if_neg (by simp [hr])]
  split
  · next kind cycle age hsending =>
    dsimp only
    split
    · exact .inr ⟨beatBits - age, .cycleStarted ⟨rfl, rfl, rfl, .inr rfl, .inl rfl, .inl rfl, rfl, .inr rfl,
        .inr rfl, rfl, .inr rfl,
        .inr (.inr (.inr ⟨rfl, rfl, cycle, age + (beatBits - age), by simp [Beat.elapse, hsending]⟩)), nofun⟩⟩
    · unfold State.ownBeatClean
      dsimp only
      split
      · exact .inr ⟨beatBits - age, .cycleStarted ⟨rfl, rfl, rfl, .inr rfl, .inl rfl, .inl rfl, rfl, .inr rfl,
          .inr rfl, rfl, .inl rfl, .inl rfl, nofun⟩⟩
      · exact .inr ⟨_, .beatEnded⟩
    · exact .inr ⟨_, .beatRefounded⟩
    · exact .inr ⟨_, .beatBarred⟩
  · exact s.actsInTime_self

theorem beatHorizon_acts (keys : KeyPins) :
    ∃ t, exec (.beatHorizon keys) s = .next t ∧ s.ActsInTime t := by
  refine ⟨_, rfl, ?_⟩
  rw [if_neg (by simp [hr])]
  split
  · dsimp only
    split
    · next haligning =>
      unfold State.failAligning
      split
      · next hfail =>
        exact .inr ⟨_, .cycleStarted ⟨rfl, rfl, rfl, .inl rfl, .inr (.inr ⟨rfl, .inl hfail⟩), .inl rfl, rfl,
          .inl rfl, .inl rfl, rfl, .inl rfl, .inl rfl, nofun⟩⟩
      · exact .inr ⟨_, .cycleStarted ⟨rfl, rfl, rfl, .inl rfl, .inl rfl, .inl rfl, rfl, .inl rfl, .inl rfl, rfl,
          .inl rfl, .inr (.inr (.inl ⟨haligning, .inr rfl⟩)), nofun⟩⟩
    · unfold State.failJoined
      refine .inr ⟨_, .cycleStarted ⟨rfl, rfl, rfl, .inl rfl, .inr (.inr ⟨rfl, ?_⟩), .inl rfl, rfl,
        .inl rfl, .inl rfl, rfl, .inl rfl, .inl rfl, fun _ => rfl⟩⟩
      rw [decide_eq_true_iff]
      exact Nat.lt_or_ge _ _
  · exact s.actsInTime_self

theorem detectorPublication_acts : ∃ t, exec .detectorPublication s = .next t ∧ s.ActsInTime t := by
  refine ⟨_, rfl, ?_⟩
  rw [if_neg (by simp [hr])]
  split
  · exact s.actsInTime_self
  · next p hp =>
    exact .inr ⟨_, .published p hp s.arbiter.detectorWait_spec⟩

theorem reportReadbackOutcome_acts (read : BitVec 83) :
    ∃ t, exec (.reportReadbackOutcome read) s = .next t ∧ s.ActsInTime t := by
  refine ⟨_, rfl, ?_⟩
  rw [if_neg (by simp [hr])]
  split
  · exact s.actsInTime_self
  · exact .inr ⟨_, .reportEnded _⟩

theorem laneReadbackOutcome_acts (read : BitVec 1064) :
    ∃ t, exec (.laneReadbackOutcome read) s = .next t ∧ s.ActsInTime t := by
  refine ⟨_, rfl, ?_⟩
  rw [if_neg (by simp [hr])]
  split
  · exact .inl (.stoppedLaneEnded _ _)
  · exact .inr ⟨_, .laneEnded _⟩
  · exact s.actsInTime_self

theorem recordLastStopBit_acts : ∃ t, exec .recordLastStopBit s = .next t ∧ s.ActsInTime t := by
  refine ⟨_, rfl, ?_⟩
  rw [if_neg (by simp [hr])]
  split
  · exact s.actsInTime_self
  · exact .inr ⟨_, .recordEnded _⟩

/-- Outside hardware reset every command but HARDWARE_RESET has one of the effects. -/
theorem exec_acts (c : Instr) (hc : c ≠ .hardwareReset) : ∃ t, exec c s = .next t ∧ s.ActsInTime t := by
  cases c with
  | hardwareReset => exact absurd rfl hc
  | resetRelease straps keys =>
    refine ⟨_, rfl, ?_⟩
    rw [if_neg (by simp [hr])]
    exact s.actsInTime_self
  | outputInstant k =>
    refine ⟨_, rfl, ?_⟩
    rw [if_neg (by simp [hr])]
    dsimp only
    split
    · exact .inr ⟨_, .nothing⟩
    · exact .inr ⟨_, .sampleTaken _⟩
  | cycleTimerExpiry keys => exact cycleTimerExpiry_acts hr keys
  | coldStartExpiry => exact coldStartExpiry_acts hr
  | beatWaitOpen => exact beatWaitOpen_acts hr
  | holderBeatRequest => exact holderBeatRequest_acts hr
  | takerDecision => exact takerDecision_acts hr
  | takerBeatStart => exact takerBeatStart_acts hr
  | deferredBeatStart => exact deferredBeatStart_acts hr
  | goodBeatDelivered word keys => exact goodBeatDelivered_acts hr word keys
  | beatCandidateDropped word => exact beatCandidateDropped_acts hr word
  | beatReadbackOutcome read keys => exact beatReadbackOutcome_acts hr read keys
  | beatHorizon keys => exact beatHorizon_acts hr keys
  | detectorPublication => exact detectorPublication_acts hr
  | ownReportSlotStart =>
    refine ⟨_, rfl, ?_⟩
    rw [if_neg (by simp [hr])]
    exact .inr ⟨_, .ownReport⟩
  | reportReadbackOutcome read => exact reportReadbackOutcome_acts hr read
  | reportSlotDelivered slot rx =>
    refine ⟨_, rfl, ?_⟩
    rw [if_neg (by simp [hr])]
    split
    · exact .inr ⟨_, .reportReceived slot rx⟩
    · exact s.actsInTime_self
  | laneSlotStart lane =>
    refine ⟨_, rfl, ?_⟩
    rw [if_neg (by simp [hr])]
    dsimp only
    split
    · next h => exact .inr ⟨_, .laneStarted lane h⟩
    · exact .inr ⟨_, .nothing⟩
  | laneReadbackOutcome read => exact laneReadbackOutcome_acts hr read
  | laneSlotDelivered lane rx =>
    refine ⟨_, rfl, ?_⟩
    rw [if_neg (by simp [hr])]
    split
    · exact .inr ⟨_, .laneReceived lane rx⟩
    · exact s.actsInTime_self
  | mixFormationEnd =>
    refine ⟨_, rfl, ?_⟩
    rw [if_neg (by simp [hr])]
    exact .inl .mixFormed
  | outputFrameStart k =>
    refine ⟨_, rfl, ?_⟩
    rw [if_neg (by simp [hr])]
    dsimp only
    rw [State.elapse_elapse]
    exact .inr ⟨_, .frameStarted k⟩
  | censusClose =>
    refine ⟨_, rfl, ?_⟩
    rw [if_neg (by simp [hr])]
    dsimp only
    split
    · next h => exact .inr ⟨_, .censusClosed h⟩
    · exact .inr ⟨_, .nothing⟩
  | statusTransmissionStart =>
    refine ⟨_, rfl, ?_⟩
    rw [if_neg (by simp [hr])]
    split
    · exact s.actsInTime_self
    · exact .inr ⟨_, .recordStarted _⟩
  | pdmDataSample level => exact pdmDataSample_acts s level
  | beatCandidateFound position recessive => exact beatCandidateFound_acts hr position recessive
  | recordLastStopBit => exact recordLastStopBit_acts hr

end Commands

/-- Under hardware reset only the release of the reset has an effect, besides the reset itself. -/
theorem exec_inReset {s : State} (hr : s.inReset = true) (c : Instr) (hc : c ≠ .hardwareReset) :
    exec c s = .next s ∨ ∃ straps keys, exec c s = .next (s.release straps keys) := by
  cases c with
  | hardwareReset => exact absurd rfl hc
  | resetRelease straps keys => exact .inr ⟨straps, keys, congrArg Host.Outcome.next (if_pos hr)⟩
  | pdmDataSample level =>
    exact .inl (congrArg Host.Outcome.next (if_neg (by simp [State.pdmClkRuns, hr])))
  | _ => exact .inl (congrArg Host.Outcome.next (if_pos hr))

/-- What a command can do. -/
theorem exec_cases {c : Instr} {s t : State} (h : exec c s = .next t) :
    t = s.resetOf ∨
    (s.inReset = true ∧ (t = s ∨ ∃ straps keys, t = s.release straps keys)) ∨
    (s.inReset = false ∧ s.ActsInTime t) := by
  by_cases hc : c = .hardwareReset
  · subst hc
    exact .inl (Host.Outcome.next.inj h).symm
  · cases hr : s.inReset with
    | true =>
      rcases exec_inReset hr c hc with he | ⟨straps, keys, he⟩
      · rw [he] at h
        exact .inr (.inl ⟨rfl, .inl (Host.Outcome.next.inj h).symm⟩)
      · rw [he] at h
        exact .inr (.inl ⟨rfl, .inr ⟨straps, keys, (Host.Outcome.next.inj h).symm⟩⟩)
    | false =>
      obtain ⟨x, he, hx⟩ := exec_acts hr c hc
      rw [he] at h
      exact .inr (.inr ⟨rfl, Host.Outcome.next.inj h ▸ hx⟩)

/-- A property of states that the passing of time, the effects, reset and its release keep is kept by every
command. -/
theorem exec_keeps {P : State → Prop} (hreset : ∀ s : State, P s.resetOf)
    (hrelease : ∀ (s : State) straps keys, s.inReset = true → P s → P (s.release straps keys))
    (helapse : ∀ n (s : State), s.inReset = false → P s → P (s.elapse n))
    (hacts : ∀ u t : State, u.inReset = false → P u → u.Acts t → P t) {c : Instr} {s t : State} (hs : P s)
    (h : exec c s = .next t) : P t := by
  rcases exec_cases h with rfl | ⟨hr, rfl | ⟨straps, keys, rfl⟩⟩ | ⟨hr, ha | ⟨n, ha⟩⟩
  · exact hreset s
  · exact hs
  · exact hrelease s straps keys hr hs
  · exact hacts s t hr hs ha
  · exact hacts (s.elapse n) t hr (helapse n s hr hs) ha

/-- Such a property, if it does not look at the waiting commands, is kept by every step. -/
theorem step_keeps {P : State → Prop} (hpending : ∀ (s : State) q, P s → P { s with pending := q })
    (hreset : ∀ s : State, P s.resetOf)
    (hrelease : ∀ (s : State) straps keys, s.inReset = true → P s → P (s.release straps keys))
    (helapse : ∀ n (s : State), s.inReset = false → P s → P (s.elapse n))
    (hacts : ∀ u t : State, u.inReset = false → P u → u.Acts t → P t) {s t : State} (hs : P s)
    (h : step s = .next t) : P t := by
  unfold step at h
  split at h
  · obtain rfl : s.idle = t := Host.Outcome.next.inj h
    unfold State.idle
    split
    · exact hs
    · next hr => exact helapse 1 s (by simpa using hr) hs
  · exact exec_keeps hreset hrelease helapse hacts (hpending s _ hs) h

end Sys2Proof.Machine

/-! SUPPORT. The frames of the shared operations: which blocks each can change. -/

namespace Sys2Proof.Machine

theorem State.startBeat_frame (kind : BeatKind) (s : State) : s.startBeat kind =
    { s with beat := (s.startBeat kind).beat, line := (s.startBeat kind).line } := by
  unfold State.startBeat
  split <;> rfl

theorem State.requestBeat_frame (kind : BeatKind) (s : State) : s.requestBeat kind =
    { s with beat := (s.requestBeat kind).beat, line := (s.requestBeat kind).line } := by
  unfold State.requestBeat
  split
  · rfl
  · exact s.startBeat_frame kind

theorem State.publish_frame (p : Processing) (s : State) : s.publish p =
    { s with
      detector := (s.publish p).detector, lanes := (s.publish p).lanes, arbiter := (s.publish p).arbiter } := by
  unfold State.publish State.bindDetectorRead
  dsimp only
  split <;> rfl

theorem State.countLaneOutcome_frame (o : Readback) (s : State) : (s.countLaneOutcome o).1 =
    { s with
      lanes := (s.countLaneOutcome o).1.lanes, audio := (s.countLaneOutcome o).1.audio
      arbiter := (s.countLaneOutcome o).1.arbiter, line := (s.countLaneOutcome o).1.line } := by
  unfold State.countLaneOutcome State.cutOwnLane
  split
  · rfl
  · split
    · rfl
    · split <;> rfl

theorem State.takeLaneOutcome_frame (o : Readback) (s : State) : s.takeLaneOutcome o =
    { s with
      lanes := (s.takeLaneOutcome o).lanes, audio := (s.takeLaneOutcome o).audio
      arbiter := (s.takeLaneOutcome o).arbiter, line := (s.takeLaneOutcome o).line
      status := (s.takeLaneOutcome o).status } := by
  unfold State.takeLaneOutcome
  split
  · dsimp only
    rw [State.countLaneOutcome_frame]
    rfl
  · rfl

theorem State.receiveReport_frame (slot : Addr) (rx : SlotRx) (s : State) : s.receiveReport slot rx =
    { s with line := (s.receiveReport slot rx).line, census := (s.receiveReport slot rx).census } := by
  unfold State.receiveReport
  dsimp only
  split
  · rfl
  · split <;> rfl

theorem State.handSet_frame (s : State) : s.handSet = { s with mix := s.handSet.mix } := by
  unfold State.handSet
  split <;> rfl

theorem State.ownReportSlot_frame (s : State) : s.ownReportSlot =
    { s with
      lanes := s.evaluateRequest.1.lanes, census := s.ownReportSlot.census, line := s.ownReportSlot.line
      status := s.status.pushAll s.beat.cycle s.evaluateRequest.2 } := by
  unfold State.ownReportSlot
  split <;> rfl

end Sys2Proof.Machine

/-! SUPPORT. Invariants of the status queue and of the speech detector. -/

namespace Sys2Proof.Machine

/-! ## The status queue (R163) -/

theorem StatusPort.Sound.of_queue {p q : StatusPort} (hp : p.Sound) (h : q.queue = p.queue) : q.Sound where
  bound := h ▸ hp.bound
  keys := h ▸ hp.keys

/-- A merge puts a record of the same key in place, so the keys of the queue stay as they were. -/
theorem pairwise_keys_merge {l m : List Record} {x : Record} {r : Record}
    (h : (l ++ x :: m).Pairwise fun x y => sameKey x.body y.body = false)
    (hk : sameKey x.body r.body = true) :
    (l ++ { cycle := r.cycle, body := mergeBody x.body r.body } :: m).Pairwise
      fun x y => sameKey x.body y.body = false := by
  have hkey : ∀ y : Record, sameKey x.body y.body = false →
      sameKey (mergeBody x.body r.body) y.body = false := fun y hy => by
    rw [sameKey_mergeBody]
    exact sameKey_trans_false hk hy
  rw [List.pairwise_append, List.pairwise_cons] at h ⊢
  obtain ⟨hl, ⟨hx, hm⟩, hlm⟩ := h
  refine ⟨hl, ⟨fun y hy => hkey y (hx y hy), hm⟩, fun y hy z hz => ?_⟩
  rcases List.mem_cons.mp hz with rfl | hz
  · rw [sameKey_comm]
    exact hkey y (by rw [sameKey_comm]; exact hlm y hy x List.mem_cons_self)
  · exact hlm y hy z (List.mem_cons_of_mem _ hz)

theorem StatusPort.Sound.push {p : StatusPort} (hp : p.Sound) (r : Record) : (p.push r).Sound := by
  rcases p.push_cases r with ⟨l, x, m, hq, hk, he⟩ | ⟨hnew, hlen, he⟩ | ⟨-, -, he⟩ <;> rw [he]
  · refine ⟨?_, pairwise_keys_merge (hq ▸ hp.keys) hk⟩
    have := hq ▸ hp.bound
    simpa using this
  · refine ⟨by simpa using hlen, ?_⟩
    simp only [List.pairwise_append, List.pairwise_singleton, List.mem_singleton, true_and]
    exact ⟨hp.keys, fun x hx y hy => hy ▸ hnew x hx⟩
  · exact hp.of_queue rfl

theorem StatusPort.Sound.pushAll {p : StatusPort} (hp : p.Sound) (cycle : BitVec 16)
    (bs : List RecordBody) : (p.pushAll cycle bs).Sound := by
  unfold StatusPort.pushAll
  induction bs generalizing p with
  | nil => exact hp
  | cons b bs ih => exact ih (hp.push _)

/-- The head record leaves a sound queue. -/
theorem StatusPort.Sound.startTx {p : StatusPort} (hp : p.Sound) (start : Nat) : (p.startTx start).Sound := by
  unfold StatusPort.startTx
  split
  · next r rest hq =>
    refine ⟨?_, ?_⟩
    · have := hq ▸ hp.bound
      rw [List.length_cons] at this
      exact Nat.le_of_succ_le this
    · exact (List.pairwise_cons.mp (hq ▸ hp.keys)).2
  · exact hp

@[simp] theorem State.afterCycleStart_queue (cs : CycleStart) (rejoins : Bool) (s : State) :
    (s.afterCycleStart cs rejoins).status.queue = s.status.queue := by
  cases rejoins <;> simp [State.afterCycleStart]

@[simp] theorem State.rejoinIfDiverged_status (s : State) : s.rejoinIfDiverged.1.status = s.status := by
  rcases s.rejoinIfDiverged_cases with ⟨-, h⟩ | ⟨-, h⟩ <;> simp [h]

@[simp] theorem State.afterCensusClose_status (s : State) : s.afterCensusClose.status = s.status := by
  simp [State.afterCensusClose]

theorem State.takeLaneOutcome_status_sound {s : State} (hs : s.status.Sound) (o : Readback) :
    (s.takeLaneOutcome o).status.Sound := by
  unfold State.takeLaneOutcome
  split
  · dsimp only
    rw [State.raise_status, State.countLaneOutcome_frame]
    exact hs.pushAll _ _
  · exact hs

theorem State.Acts.keeps_queue {u t : State} (h : u.Acts t) (hu : u.status.Sound) : t.status.Sound := by
  cases h with
  | cycleStarted h =>
    obtain ⟨bs, he⟩ := State.cycleStart_spec _ _ _
    rw [he, State.raise_status]
    refine (hu.of_queue ?_).pushAll _ _
    rw [State.afterCycleStart_queue, h.frame]
  | beatRequested kind c p h => rw [State.requestBeat_frame]; exact hu
  | beatDeferred kind => rw [State.startBeat_frame]; exact hu
  | published p h hread => rw [State.publish_frame]; exact hu
  | ownReport => rw [State.ownReportSlot_frame]; exact hu.pushAll _ _
  | reportReceived slot rx => rw [State.receiveReport_frame]; exact hu
  | stoppedLaneEnded rest o => refine State.takeLaneOutcome_status_sound ?_ o; exact hu
  | laneEnded o => refine State.takeLaneOutcome_status_sound ?_ o; exact hu
  | laneReceived lane rx => rw [State.handSet_frame]; exact hu
  | mixFormed => exact hu.pushAll _ _
  | censusClosed h =>
    obtain ⟨bs, he⟩ := State.censusClose_spec u
    rw [he, State.raise_status, State.afterCensusClose_status]
    exact hu.pushAll _ _
  | recordStarted start => exact hu.startTx start
  | nothing | sampleTaken | pdmSampled | waitOpened | takerFixed | candidateFound | candidateDropped
  | beatRefounded | beatBarred | beatEnded | reportEnded | laneStarted | frameStarted | recordEnded =>
    exact hu.of_queue rfl

theorem StatusPort.reset_sound : StatusPort.reset.Sound := ⟨Nat.zero_le _, List.Pairwise.nil⟩

/-- Settles O57: only the hand-over of records and the start of a transmission change the queue. -/
theorem everyStepKeepsTheStatusQueueBounded : Obligations.EveryStepKeepsTheStatusQueueBounded :=
  fun _ _ hs h => step_keeps (P := fun s => s.status.Sound) (fun _ _ hs => hs)
    (fun _ => StatusPort.reset_sound) (fun _ _ _ _ hs => hs.pushAll _ _)
    (fun _ _ _ hs => hs.of_queue rfl) (fun _ _ _ hs ha => ha.keeps_queue hs) hs h

/-! ## The speech detector (Table 2-1, R17, R25, R27, R28) -/

theorem level_le (f : Frame) : level f ≤ 255 := by
  have := List.countP_le_length (p := fun i => levelAtLeast (sumSquares f) (i + 1)) (l := List.range 255)
  rwa [List.length_range] at this

theorem hangoverLength_range (hang : Fin 4) : 1 ≤ hangoverLength hang ∧ hangoverLength hang ≤ 200 := by
  revert hang
  decide

/-- The hangover counter runs in HANGOVER only, from the length down to 1 (Table 2-5, R27). -/
theorem nextDetState_hangover {state : DetState} {hang length : Nat} (q1 q2 q3 : Bool)
    (hl : 1 ≤ length ∧ length ≤ 200) (hh : hang ≤ 200) :
    let x := nextDetState state hang length q1 q2 q3
    if x.1 = .hangover then 1 ≤ x.2 ∧ x.2 ≤ 200 else x.2 = 0 := by
  cases state with
  | silent => cases q1 <;> rfl
  | onset => cases q1 <;> cases q2 <;> cases q3 <;> rfl
  | speech =>
    cases q1
    · exact hl
    · rfl
  | hangover =>
    cases q1
    · by_cases h : 1 < hang
      · simp only [nextDetState, Bool.false_eq_true, if_false, if_pos h, if_true]
        omega
      · simp [nextDetState, h]
    · rfl

theorem noiseUpdate_range {l floor rise : Nat} (before : DetState) (hl : l ≤ 255) (hf : floor ≤ 255)
    (hr : rise ≤ 7) : (noiseUpdate l floor rise before).1 ≤ 255 ∧ (noiseUpdate l floor rise before).2 ≤ 7 := by
  unfold noiseUpdate
  repeat' split
  all_goals dsimp only; omega

theorem Detector.Sound.hangover_le {d : Detector} (hd : d.Sound) : d.hangover ≤ 200 := by
  have := hd.hangover
  split at this <;> omega

theorem Detector.Sound.judge {d : Detector} (hd : d.Sound) (straps : Straps) (p : Processing) :
    (d.judge straps p).Sound := by
  have hlevel := level_le p.samples
  refine ⟨?_, ?_, ?_, ?_, ?_⟩
  · have := hd.score
    simp only [Detector.judge, nextScore]
    repeat' split
    all_goals omega
  · simp only [Detector.judge]
    split
    · exact (noiseUpdate_range d.state hlevel hd.floor hd.rise).1
    · exact hd.floor
  · simp only [Detector.judge]
    split
    · exact (noiseUpdate_range d.state hlevel hd.floor hd.rise).2
    · exact hd.rise
  · intro hsilent
    simp only [Detector.judge] at hsilent ⊢
    simp [nextScore, hsilent]
  · exact nextDetState_hangover _ _ _ (hangoverLength_range straps.hang) hd.hangover_le

theorem Detector.Sound.force {d : Detector} (hd : d.Sound) : d.force.Sound :=
  ⟨Nat.zero_le _, hd.floor, hd.rise, fun _ => ⟨rfl, rfl, rfl, rfl⟩, rfl⟩

/-- Soundness and publication look at neither the processing nor the pending completion. -/
def Detector.Steady (d : Detector) : Prop := d.Sound ∧ d.Published

theorem Detector.Steady.of_rest {d : Detector} (hd : d.Steady) (x : Option Processing)
    (y : Option Completion) : Detector.Steady { d with processing := x, pending := y } :=
  ⟨⟨hd.1.score, hd.1.floor, hd.1.rise, hd.1.silent, hd.1.hangover⟩, hd.2⟩

/-- A publication makes the outputs those of the state that it leaves (R17). -/
theorem Detector.Sound.process {d : Detector} (hd : d.Sound) (straps : Straps) (p : Processing) :
    (d.process straps p).Steady := by
  have publish : ∀ e : Detector, e.Sound →
      Detector.Steady { e with outState := e.state, outScore := e.score } := fun e he =>
    ⟨⟨he.score, he.floor, he.rise, he.silent, he.hangover⟩, rfl, rfl⟩
  unfold Detector.process
  dsimp only
  split
  · exact publish _ hd.force
  · exact publish _ (hd.judge straps p)

theorem Detector.Steady.takePending {d : Detector} (hd : d.Steady) (bank : Capture) :
    (d.takePending bank).Steady := by
  unfold Detector.takePending
  split
  · exact hd.of_rest _ _
  · exact hd.of_rest _ _

theorem Detector.Steady.offer {d : Detector} (hd : d.Steady) (role : Role) (bank : Capture)
    (done : Completion) : (d.offer role bank done).Steady := by
  unfold Detector.offer
  split
  · exact hd
  · split
    · exact hd.of_rest _ _
    · exact hd.of_rest _ _

theorem Detector.reset_steady : Detector.reset.Steady :=
  ⟨⟨by decide, by decide, by decide, fun _ => ⟨rfl, rfl, rfl, rfl⟩, rfl⟩, rfl, rfl⟩

@[simp] theorem State.publish_detector (p : Processing) (s : State) :
    (s.publish p).detector = (s.detector.process s.keys.straps p).takePending s.capture := by
  unfold State.publish State.bindDetectorRead
  dsimp only
  split <;> rfl

/-- A cycle start offers the completed frame to the detector, with or without a rejoin (R32). -/
@[simp] theorem State.afterCycleStart_detector (cs : CycleStart) (rejoins : Bool) (s : State) :
    (s.afterCycleStart cs rejoins).detector =
      s.detector.offer s.role (s.capture.complete s.keys.straps cs.displacement).1
        (s.capture.complete s.keys.straps cs.displacement).2 := by
  cases rejoins <;> simp [State.afterCycleStart]

@[simp] theorem State.rejoinIfDiverged_detector (s : State) :
    s.rejoinIfDiverged.1.detector = s.detector := by
  rcases s.rejoinIfDiverged_cases with ⟨-, h⟩ | ⟨-, h⟩ <;> simp [h]

@[simp] theorem State.censusClose_detector (s : State) : s.censusClose.detector = s.detector := by
  obtain ⟨bs, h⟩ := s.censusClose_spec
  simp [h, State.afterCensusClose]

theorem State.Acts.keeps_detector {u t : State} (h : u.Acts t) (hu : u.detector.Steady) :
    t.detector.Steady := by
  cases h with
  | @cycleStarted v cs rejoins h =>
    rw [State.cycleStart_detector, State.afterCycleStart_detector]
    have hd : v.detector = u.detector := by rw [h.frame]
    rw [hd]
    exact hu.offer _ _ _
  | beatRequested kind c p h => rw [State.requestBeat_frame]; exact hu
  | beatDeferred kind => rw [State.startBeat_frame]; exact hu
  | published p h hread =>
    rw [State.publish_detector]
    exact (hu.1.process _ p).takePending _
  | ownReport => rw [State.ownReportSlot_frame]; exact hu
  | reportReceived slot rx => rw [State.receiveReport_frame]; exact hu
  | stoppedLaneEnded rest o => rw [State.takeLaneOutcome_frame]; exact hu
  | laneEnded o => rw [State.takeLaneOutcome_frame]; exact hu
  | laneReceived lane rx => rw [State.handSet_frame]; exact hu
  | censusClosed h => rw [State.censusClose_detector]; exact hu
  | nothing | sampleTaken | pdmSampled | waitOpened | takerFixed | candidateFound | candidateDropped
  | beatRefounded | beatBarred | beatEnded | reportEnded | laneStarted | mixFormed | frameStarted
  | recordStarted | recordEnded => exact hu

/-- Settles O58: only publications and offers change the detector. -/
theorem everyStepKeepsTheDetectorSound : Obligations.EveryStepKeepsTheDetectorSound :=
  fun _ _ hs hp h => step_keeps (P := fun s => s.detector.Steady) (fun _ _ hs => hs)
    (fun _ => Detector.reset_steady) (fun _ _ _ _ hs => hs) (fun _ _ _ hs => hs)
    (fun _ _ _ hs ha => ha.keeps_detector hs) ⟨hs, hp⟩ h

end Sys2Proof.Machine

/-! SUPPORT. The reads that wait at the bank arbiter stay in order. -/

namespace Sys2Proof.Machine

/-! ## Raising reads in sample order -/

/-- Each reader's reads stand in sample order (R10). -/
def SampleOrder (rs : List BankRead) : Prop :=
  rs.Pairwise fun x y => x.reader = y.reader → x.position < y.position

/-- The reads stand in the order of raising (R10). -/
def DueOrder (rs : List BankRead) : Prop := rs.Pairwise fun x y => x.due ≤ y.due

/-- A read raised before all reads of its reader keeps the sample order. -/
theorem SampleOrder.insertFirst {r : BankRead} {rs : List BankRead} (h : SampleOrder rs)
    (hr : ∀ y ∈ rs, r.reader = y.reader → r.position < y.position ∧ r.due ≤ y.due) :
    SampleOrder (insertRead true r rs) := by
  induction rs with
  | nil => exact List.pairwise_singleton _ _
  | cons x rest ih =>
    obtain ⟨hx, hrest⟩ := List.pairwise_cons.mp h
    simp only [insertRead, if_true]
    split
    · exact List.pairwise_cons.mpr ⟨fun y hy he => (hr y hy he).1, h⟩
    · next hlt =>
      refine List.pairwise_cons.mpr
        ⟨fun y hy he => ?_, ih hrest fun y hy => hr y (List.mem_cons_of_mem _ hy)⟩
      rcases List.mem_cons.mp ((insertRead_perm true r rest).mem_iff.mp hy) with rfl | hy
      · exact absurd (hr x List.mem_cons_self he.symm).2 hlt
      · exact hx y hy he

/-- A read raised after all reads of its reader keeps the sample order. -/
theorem SampleOrder.insertLast {r : BankRead} {rs : List BankRead} (h : SampleOrder rs) (hd : DueOrder rs)
    (hr : ∀ y ∈ rs, y.reader = r.reader → y.position < r.position ∧ y.due ≤ r.due) :
    SampleOrder (insertRead false r rs) := by
  induction rs with
  | nil => exact List.pairwise_singleton _ _
  | cons x rest ih =>
    obtain ⟨hx, hrest⟩ := List.pairwise_cons.mp h
    obtain ⟨hxd, hd⟩ := List.pairwise_cons.mp hd
    simp only [insertRead, Bool.false_eq_true, if_false]
    split
    · next hlt =>
      refine List.pairwise_cons.mpr ⟨fun y hy he => ?_, h⟩
      have hle := (hr y hy he.symm).2
      rcases List.mem_cons.mp hy with rfl | hy
      · omega
      · have := hxd y hy
        omega
    · refine List.pairwise_cons.mpr
        ⟨fun y hy he => ?_, ih hrest hd fun y hy => hr y (List.mem_cons_of_mem _ hy)⟩
      rcases List.mem_cons.mp ((insertRead_perm false r rest).mem_iff.mp hy) with rfl | hy
      · exact (hr x List.mem_cons_self he).1
      · exact hx y hy he

/-- The reads of a reader that waits for none join in sample order (R10). -/
theorem SampleOrder.insertReads (first : Bool) {new old : List BankRead} (h : SampleOrder old)
    (hd : DueOrder old) (hnew : new.Pairwise fun x y => x.position < y.position ∧ x.due ≤ y.due)
    (hother : ∀ x ∈ new, ∀ y ∈ old, x.reader ≠ y.reader) :
    SampleOrder (insertReads first new old) := by
  unfold Machine.insertReads
  split
  · induction new with
    | nil => exact h
    | cons r rest ih =>
      obtain ⟨hr, hrest⟩ := List.pairwise_cons.mp hnew
      refine (ih hrest fun x hx => hother x (List.mem_cons_of_mem _ hx)).insertFirst fun y hy he => ?_
      have hmem : y ∈ Machine.insertReads true rest old := hy
      rcases mem_insertReads.mp hmem with hy | hy
      · exact hr y hy
      · exact absurd he (hother r List.mem_cons_self y hy)
  · suffices hgen : ∀ (l : List BankRead), SampleOrder l → DueOrder l →
        (∀ x ∈ new, ∀ y ∈ l, y.reader = x.reader → y.position < x.position ∧ y.due ≤ x.due) →
        SampleOrder (new.foldl (fun l r => insertRead false r l) l) from
      hgen old h hd fun x hx y hy he => absurd he.symm (hother x hx y hy)
    clear hother
    induction new with
    | nil => exact fun l hl _ _ => hl
    | cons r rest ih =>
      intro l hl hdl hlast
      obtain ⟨hr, hrest⟩ := List.pairwise_cons.mp hnew
      refine ih hrest _ (hl.insertLast hdl (hlast r List.mem_cons_self)) (insertRead_order false r hdl)
        fun x hx y hy he => ?_
      rcases List.mem_cons.mp ((insertRead_perm false r l).mem_iff.mp hy) with rfl | hy
      · exact hr x hx
      · exact hlast x (List.mem_cons_of_mem _ hx) y hy he

theorem detectorReads_order (slot : Fin 4) :
    (detectorReads slot).Pairwise fun x y => x.position < y.position ∧ x.due ≤ y.due :=
  List.pairwise_map.mpr ((List.pairwise_lt_finRange 64).imp fun h => ⟨h, le_refl _⟩)

theorem requestTime_le {i j : Fin 64} (h : i < j) : requestTime i ≤ requestTime j := by
  have hlt : i.val < j.val := h
  unfold requestTime
  split <;> split <;> simp only [Fin.ext_iff, Fin.val_zero] at * <;> omega

theorem transmitterReads_order (slot : Fin 4) :
    (transmitterReads slot).Pairwise fun x y => x.position < y.position ∧ x.due ≤ y.due :=
  List.pairwise_map.mpr ((List.pairwise_lt_finRange 64).imp fun h => ⟨h, requestTime_le h⟩)

/-! ## What waits at the arbiter -/

/-- The reads in order, the detector's only while it is `reading`, the transmitter's only while it is
`sending` (R10, R11). -/
structure Arbiter.Fits (a : Arbiter) (reading sending : Bool) : Prop where
  order       : DueOrder a.reads
  positions   : SampleOrder a.reads
  detector    : ∀ r ∈ a.reads, r.reader = .detector → r.due ≤ 0 ∧ reading = true
  transmitter : ∀ r ∈ a.reads, r.reader = .transmitter → sending = true

theorem State.readsSound_iff {s : State} : s.ReadsSound ↔
    s.arbiter.Fits s.detector.processing.isSome s.audio.tx.isSome :=
  ⟨fun h => ⟨h.order, h.positions, h.detector, h.transmitter⟩,
    fun h => ⟨h.order, h.positions, h.detector, h.transmitter⟩⟩

section
variable {a : Arbiter} {reading sending : Bool}

theorem Arbiter.Fits.raiseWrite (h : a.Fits reading sending) : a.raiseWrite.Fits reading sending :=
  ⟨h.order, h.positions, h.detector, h.transmitter⟩

theorem Arbiter.Fits.elapse (h : a.Fits reading sending) (n : Nat) : (a.elapse n).Fits reading sending := by
  obtain ⟨front, back, ha, hback⟩ := a.elapse_waiting n
  have horder := (List.pairwise_append.mp (ha ▸ h.order)).2.1
  have hpositions := (List.pairwise_append.mp (ha ▸ h.positions)).2.1
  refine ⟨?_, ?_, fun r hr hreader => ?_, fun r hr hreader => ?_⟩
  · rw [DueOrder, hback, List.pairwise_map]
    exact horder.imp fun hle => by simpa using hle
  · rw [SampleOrder, hback, List.pairwise_map]
    exact hpositions
  · obtain ⟨x, hx, rfl⟩ := Arbiter.mem_elapse hr
    obtain ⟨hdue, hreading⟩ := h.detector x hx hreader
    exact ⟨by dsimp only; omega, hreading⟩
  · obtain ⟨x, hx, rfl⟩ := Arbiter.mem_elapse hr
    exact h.transmitter x hx hreader

/-- Once the transmitter's read has ended nothing waits for it. -/
theorem Arbiter.Fits.endTransmitter (h : a.Fits reading sending) (sending' : Bool) :
    a.endTransmitter.Fits reading sending' where
  order := List.Pairwise.filter _ h.order
  positions := List.Pairwise.filter _ h.positions
  detector r hr := h.detector r (Arbiter.mem_endTransmitter.mp hr).1
  transmitter _ hr hreader := absurd hreader (Arbiter.mem_endTransmitter.mp hr).2

/-- A processing that no read waits for may end, another one begin. -/
theorem Arbiter.Fits.ofRead (h : a.Fits reading sending) (hread : ∀ r ∈ a.reads, r.reader ≠ .detector)
    (reading' : Bool) : a.Fits reading' sending :=
  ⟨h.order, h.positions, fun r hr hreader => absurd hreader (hread r hr), h.transmitter⟩

theorem Arbiter.Fits.unread (h : a.Fits false sending) : ∀ r ∈ a.reads, r.reader ≠ .detector :=
  fun r hr hreader => nomatch (h.detector r hr hreader).2

theorem Arbiter.Fits.raiseDetector (h : a.Fits reading sending)
    (hread : ∀ r ∈ a.reads, r.reader ≠ .detector) (first : Bool) (slot : Fin 4) :
    (a.raiseDetector first slot).Fits true sending where
  order := insertReads_order first _ h.order
  positions := h.positions.insertReads first h.order (detectorReads_order slot) fun x hx y hy he =>
    hread y hy (he ▸ (mem_detectorReads.mp hx).1)
  detector r hr hreader := by
    rcases mem_insertReads.mp hr with hr | hr
    · exact ⟨(mem_detectorReads.mp hr).2.2.le, rfl⟩
    · exact absurd hreader (hread r hr)
  transmitter r hr hreader := by
    rcases mem_insertReads.mp hr with hr | hr
    · rw [(mem_detectorReads.mp hr).1] at hreader
      cases hreader
    · exact h.transmitter r hr hreader

theorem Arbiter.Fits.raiseTransmitter (h : a.Fits reading sending)
    (hsent : ∀ r ∈ a.reads, r.reader ≠ .transmitter) (first : Bool) (slot : Fin 4) :
    (a.raiseTransmitter first slot).Fits reading true where
  order := insertReads_order first _ h.order
  positions := h.positions.insertReads first h.order (transmitterReads_order slot) fun x hx y hy he =>
    hsent y hy (he ▸ (mem_transmitterReads.mp hx).1)
  detector r hr hreader := by
    rcases mem_insertReads.mp hr with hr | hr
    · rw [(mem_transmitterReads.mp hr).1] at hreader
      cases hreader
    · exact h.detector r hr hreader
  transmitter _ _ _ := rfl

end

/-! ## The effects -/

/-- An effect that leaves the detector alone leaves the waiting reads and the own lane frame as they are, or
ends the transmitter's read. -/
def State.KeepsReads (s t : State) : Prop :=
  (t.arbiter = s.arbiter ∧ t.audio.tx = s.audio.tx) ∨ t.arbiter = s.arbiter.endTransmitter

theorem State.KeepsReads.refl (s : State) : s.KeepsReads s := .inl ⟨rfl, rfl⟩

theorem Arbiter.endTransmitter_endTransmitter (a : Arbiter) :
    a.endTransmitter.endTransmitter = a.endTransmitter := by
  simp [Arbiter.endTransmitter]

theorem State.KeepsReads.trans {s t u : State} (h : s.KeepsReads t) (h' : t.KeepsReads u) : s.KeepsReads u := by
  rcases h with ⟨ha, htx⟩ | ha <;> rcases h' with ⟨ha', htx'⟩ | ha'
  · exact .inl ⟨ha'.trans ha, htx'.trans htx⟩
  · exact .inr (ha'.trans (congrArg _ ha))
  · exact .inr (ha'.trans ha)
  · exact .inr (ha'.trans ((congrArg _ ha).trans (Arbiter.endTransmitter_endTransmitter _)))

theorem State.KeepsReads.fits {s t : State} (h : s.KeepsReads t) {reading : Bool}
    (hs : s.arbiter.Fits reading s.audio.tx.isSome) : t.arbiter.Fits reading t.audio.tx.isSome := by
  rcases h with ⟨ha, htx⟩ | ha
  · rwa [ha, htx]
  · rw [ha]
    exact hs.endTransmitter _

theorem State.cutOwnLane_keepsReads (g : GateReason) (s : State) : s.KeepsReads (s.cutOwnLane g).1 := by
  unfold State.cutOwnLane
  split
  · exact .refl s
  · exact .inr rfl

theorem State.takeLaneOutcome_keepsReads (o : Readback) (s : State) : s.KeepsReads (s.takeLaneOutcome o) := by
  unfold State.takeLaneOutcome State.countLaneOutcome
  split
  · cases o with
    | clean => exact .refl s
    | collision =>
      dsimp only
      split
      · exact .refl s
      · exact s.cutOwnLane_keepsReads .conflict
  · exact .refl s

theorem State.rejoin_keepsReads (r : SyncReason) (s : State) : s.KeepsReads (s.rejoin r).1 :=
  .inr (s.rejoin_arbiter r)

theorem State.compareDigests_arbiter (d : Delivery) (b : BitVec 16) (s : State) :
    (s.compareDigests d b).1.arbiter = s.arbiter := by
  unfold State.compareDigests
  split <;> rfl

theorem State.keepLane_arbiter (t : LaneTable) (m : Bool) (l : Lane) (s : State) :
    (s.keepLane t m l).arbiter = s.arbiter := by
  unfold State.keepLane
  dsimp only
  repeat' (first | rfl | split)

theorem State.ownerSide_arbiter (b : LaneTable) (lost m : Bool) (r : ElectionResult) (s : State) :
    (s.ownerSide b lost m r).1.arbiter = s.arbiter := by
  unfold State.ownerSide
  repeat' (first | rfl | exact State.keepLane_arbiter _ _ _ _ | split)

theorem State.settleOwn_arbiter (s : State) : s.settleOwn.1.arbiter = s.arbiter := by
  unfold State.settleOwn
  split <;> rfl

theorem State.election_keepsReads (s : State) : s.KeepsReads s.election.1 := by
  have hcut : s.KeepsReads (if lostToRepair s.winners s.lanes.table s.own then s.cutOwnLane .conflict
      else (s, [])).1 := by
    split
    · exact s.cutOwnLane_keepsReads .conflict
    · exact .refl s
  refine hcut.trans (.inl ⟨?_, ?_⟩) <;> unfold State.election <;> dsimp only
  · rw [State.settleOwn_arbiter, State.ownerSide_arbiter]
    split
    · rw [State.compareDigests_arbiter, State.setTable_arbiter]
    · rfl
  · rw [State.settleOwn_audio, State.ownerSide_audio]
    split
    · rw [State.compareDigests_audio, State.setTable_audio]
    · rfl

theorem State.lanesAtCensus_keepsReads (c : Bool) (s : State) : s.KeepsReads (s.lanesAtCensus c).1 := by
  unfold State.lanesAtCensus
  split
  · exact s.election_keepsReads
  · exact s.election_keepsReads
  all_goals first
    | exact .refl s
    | (split
       · exact s.cutOwnLane_keepsReads .conflict
       · exact .refl s)

theorem State.beatAtCensus_arbiter (c : Bool) (s : State) : (s.beatAtCensus c).1.arbiter = s.arbiter := by
  unfold State.beatAtCensus State.observe State.recheck State.waitConflict State.enter State.enterConflict
    State.becomeLocked State.changeSync
  dsimp only
  repeat' (first | rfl | split)

theorem State.rejoinIfDiverged_keepsReads (s : State) : s.KeepsReads s.rejoinIfDiverged.1 := by
  rcases s.rejoinIfDiverged_cases with ⟨-, h⟩ | ⟨-, h⟩ <;> rw [h]
  · exact s.rejoin_keepsReads .diverged
  · exact .refl s

theorem State.censusClose_keepsReads (s : State) : s.KeepsReads s.censusClose := by
  refine State.KeepsReads.trans (t := (s.closeCensus.beatAtCensus
    (ownSlotCollisions s.beat.sync s.census.readback s.census.ownCollisions).2).1) (.inl ⟨?_, ?_⟩) ?_
  · rw [State.beatAtCensus_arbiter]
    rfl
  · rw [State.beatAtCensus_audio]
    rfl
  · exact (State.lanesAtCensus_keepsReads _ _).trans (State.rejoinIfDiverged_keepsReads _)

/-- A cycle start ends the transmitter's read, and raises that of the detector with a processing (R11). -/
theorem State.cycleStart_fits {v : State} (cs : CycleStart) (rejoins : Bool)
    (hv : v.arbiter.Fits v.detector.processing.isSome v.audio.tx.isSome) (sending : Bool) :
    (v.cycleStart cs rejoins).arbiter.Fits (v.cycleStart cs rejoins).detector.processing.isSome sending := by
  have hbegin : ∀ bank : Capture, ∀ done : Completion,
      (v.arbiterAtCycleStart bank).Fits (v.detector.offer v.role bank done).processing.isSome false := by
    intro bank done
    have hended := hv.endTransmitter false
    unfold State.arbiterAtCycleStart Detector.offer
    dsimp only
    split
    · exact hended
    · cases hp : v.detector.processing with
      | none =>
        rw [hp] at hended
        exact hended.raiseWrite.raiseDetector hended.raiseWrite.unread _ _
      | some p =>
        rw [hp] at hended
        simpa [hp] using hended.raiseWrite
  have hsilent : ∀ bank : Capture, ∀ r ∈ (v.arbiterAtCycleStart bank).reads, r.reader ≠ .transmitter :=
    fun bank r hr hreader => nomatch (hbegin bank ⟨.valid, false, .ok⟩).transmitter r hr hreader
  rw [State.cycleStart_detector, State.afterCycleStart_detector, State.cycleStart_arbiter]
  unfold State.afterCycleStart
  cases rejoins with
  | true =>
    simp only [if_true, State.summaryTick_arbiter, State.rejoin_arbiter, State.beginCycle_arbiter]
    exact (hbegin _ _).endTransmitter sending
  | false =>
    simp only [Bool.false_eq_true, if_false, State.summaryTick_arbiter, State.beginCycle_arbiter]
    exact { hbegin _ _ with transmitter := fun r hr hreader => absurd hreader (hsilent _ r hr) }

theorem State.publish_fits {u : State} (p : Processing)
    (hu : u.arbiter.Fits u.detector.processing.isSome u.audio.tx.isSome)
    (hread : ∀ r ∈ u.arbiter.reads, r.reader ≠ .detector) :
    (u.publish p).arbiter.Fits (u.publish p).detector.processing.isSome u.audio.tx.isSome := by
  unfold State.publish State.bindDetectorRead
  dsimp only
  split
  · next h =>
    rw [h]
    exact hu.raiseDetector hread _ _
  · exact hu.ofRead hread _

theorem State.Acts.keeps_reads {u t : State} (h : u.Acts t) (hu : u.ReadsSound) : t.ReadsSound := by
  rw [State.readsSound_iff] at hu ⊢
  cases h with
  | sampleTaken k => exact hu.raiseWrite
  | @cycleStarted v cs rejoins h =>
    refine State.cycleStart_fits cs rejoins ?_ _
    rw [h.frame]
    exact hu
  | beatRequested kind c p h => rw [State.requestBeat_frame]; exact hu
  | beatDeferred kind => rw [State.startBeat_frame]; exact hu
  | published p h hread =>
    have := State.publish_fits p hu hread
    rwa [State.publish_frame] at this ⊢
  | ownReport => rw [State.ownReportSlot_frame]; exact hu
  | reportReceived slot rx => rw [State.receiveReport_frame]; exact hu
  | laneStarted lane h =>
    exact (hu.endTransmitter false).raiseTransmitter
      (fun r hr => (Arbiter.mem_endTransmitter.mp hr).2) _ _
  | stoppedLaneEnded rest o =>
    have := (State.takeLaneOutcome_keepsReads o { u with line := { u.line with stopped := rest } }).fits hu
    rwa [State.takeLaneOutcome_frame] at this ⊢
  | laneEnded o =>
    have := (State.takeLaneOutcome_keepsReads o u.endLane).fits (hu.endTransmitter _)
    rwa [State.takeLaneOutcome_frame] at this ⊢
  | laneReceived lane rx => rw [State.handSet_frame]; exact hu
  | censusClosed h =>
    rw [State.censusClose_detector]
    exact u.censusClose_keepsReads.fits hu
  | nothing | pdmSampled | waitOpened | takerFixed | candidateFound | candidateDropped | beatRefounded
  | beatBarred | beatEnded | reportEnded | mixFormed | frameStarted | recordStarted | recordEnded => exact hu

/-- Settles O59: reads join in order, and end with what they are read for. -/
theorem everyStepKeepsTheReadsSound : Obligations.EveryStepKeepsTheReadsSound :=
  fun _ _ hs h => step_keeps (P := State.ReadsSound)
    (fun _ _ hs => ⟨hs.order, hs.positions, hs.detector, hs.transmitter⟩)
    (fun _ => ⟨List.Pairwise.nil, List.Pairwise.nil, nofun, nofun⟩)
    (fun _ _ _ _ hs => ⟨hs.order, hs.positions, hs.detector, hs.transmitter⟩)
    (fun n _ _ hs => State.readsSound_iff.mpr ((State.readsSound_iff.mp hs).elapse n))
    (fun _ _ _ hs ha => ha.keeps_reads hs) hs h

end Sys2Proof.Machine

/-! SUPPORT. The counters of the node stay within their ranges, block by block. -/

namespace Sys2Proof.Machine

/-! ## The steps of the election by name (R90) -/

/-- Whether stage 1 adopts the own lane for another address (R114). -/
def State.losesLane (s : State) : Bool := lostToRepair s.winners s.lanes.table s.own

/-- The own lane is cut when repair takes it (R114). -/
def State.repaired (s : State) : State × List RecordBody :=
  if s.losesLane then s.cutOwnLane .conflict else (s, [])

/-- The stages 2, 6 and 7, on the table that stage 1 leaves. -/
def State.elected (s : State) : ElectionResult :=
  elect s.keys.straps.policy s.delivery (repairTable s.winners s.lanes.table s.repaired.1.lanes.table)

/-- The table is written and the digests are compared (R99, R119). -/
def State.compared (s : State) : State × List RecordBody :=
  if s.beat.sync = .locked then
    (s.repaired.1.setTable s.elected.after7).compareDigests s.delivery s.lanes.digest
  else
    ({ s.repaired.1.setTable s.elected.after7 with
        lanes := { (s.repaired.1.setTable s.elected.after7).lanes with divergence := 0 } }, [])

/-- Stage 9. -/
def State.decided (s : State) : State × List RecordBody :=
  s.compared.1.ownerSide s.lanes.table s.losesLane (hasMuteAll s.delivery) s.elected

theorem State.election_eq (s : State) : s.election = (s.decided.1.settleOwn.1,
    repairRecords s.winners s.lanes.table (s.lanes.table.laneOf s.own) s.repaired.2 ++ s.compared.2 ++
      s.decided.2 ++ s.decided.1.settleOwn.2) :=
  rfl

/-! ## The steps of the census close by name (R74) -/

/-- An own-slot conflict at this census close (R70). -/
def State.slotConflict (s : State) : Bool :=
  (ownSlotCollisions s.beat.sync s.census.readback s.census.ownCollisions).2

/-- The census unit and the beat unit have decided. -/
def State.beatClosed (s : State) : State × List RecordBody := s.closeCensus.beatAtCensus s.slotConflict

/-- The lane manager has decided too. -/
def State.lanesClosed (s : State) : State × List RecordBody := s.beatClosed.1.lanesAtCensus s.slotConflict

theorem State.censusClose_eq (s : State) : s.censusClose = s.lanesClosed.1.rejoinIfDiverged.1.raise
    (peerRecords s.own s.census.peers s.closeCensus.census.peers ++ s.beatClosed.2 ++ s.lanesClosed.2 ++
      s.lanesClosed.1.rejoinIfDiverged.2) :=
  rfl

/-! ## Ranges of a block -/

/-- The counters of the microphone state (R12). -/
def Capture.InRange (c : Capture) : Prop := c.stuckCount ≤ 1 ∧ c.goodCount ≤ 3

/-- The counters of the beat unit, but for beat failures (R55, R57, R62). -/
def Beat.InRange (b : Beat) : Prop := b.barred ≤ 250 ∧ b.obsCount ≤ 2 ∧ b.entCount ≤ 2

/-- Every peer-table entry has the counts that go with its presence (Table 5-4). -/
def PeersSound (t : PeerTable) : Prop := ∀ a : Addr, t[a].Sound

/-- The counters of the census unit (R70, R72, R77). -/
def Census.InRange (c : Census) : Prop := c.ownCollisions ≤ 1 ∧ c.conflictWait ≤ 250 ∧ PeersSound c.peers

/-- The counters of the lane manager, the divergence counter up to `d` (R88, R120, R123). -/
def LaneManager.InRange (d : Nat) (l : LaneManager) : Prop :=
  l.waitAge ≤ 255 ∧ l.divergence ≤ d ∧ l.laneCollisions ≤ 1

/-- The counters of the key and indicator unit (R153, R156). -/
def KeyUnit.InRange (k : KeyUnit) : Prop := k.keyA.count ≤ 4 ∧ k.keyB.count ≤ 4 ∧ k.blinkCount ≤ 124

/-- The phase of OCLK at a bit time (R145). -/
def Mix.InRange (m : Mix) : Prop := m.oclk < 12 ∧ m.oclk % 4 = 0

/-- All counters, the divergence counter up to `d`, the beat failures up to `f`. -/
structure State.Ranges (d f : Nat) (s : State) : Prop where
  capture  : s.capture.InRange
  quiet    : s.line.beatQuiet ≤ 4
  failures : s.beat.failures ≤ f
  beat     : s.beat.InRange
  census   : s.census.InRange
  lanes    : s.lanes.InRange d
  keys     : s.keys.InRange
  summary  : s.status.summaryCount ≤ 249
  mix      : s.mix.InRange

theorem State.countersInRange_iff {s : State} : s.CountersInRange ↔ s.Ranges 3 2 where
  mp h := ⟨⟨h.stuck, h.good⟩, h.beatQuiet, h.failures, ⟨h.barred, h.observation, h.entering⟩,
    ⟨h.ownCollisions, h.conflictWait, h.peers⟩, ⟨h.waitAge, h.divergence, h.laneCollisions⟩,
    ⟨h.keyA, h.keyB, h.blink⟩, h.summary, h.oclk⟩
  mpr h := by
    obtain ⟨⟨hstuck, hgood⟩, hquiet, hfail, ⟨hbar, hobs, hent⟩, ⟨hown, hwait, hpeers⟩,
      ⟨hage, hdiv, hcol⟩, ⟨hA, hB, hblink⟩, hsum, hoclk⟩ := h
    exact ⟨hstuck, hgood, hbar, hfail, hquiet, hobs, hent, hown, hwait, hage, hdiv, hcol, hA, hB, hblink, hsum,
      hpeers, hoclk⟩

/-! ## Capture unit and keys -/

theorem Capture.InRange.updateMic {c : Capture} (h : c.InRange) (v : Validity) : (c.updateMic v).InRange := by
  obtain ⟨hstuck, hgood⟩ := h
  have hzero : (0 : Nat) ≤ 1 ∧ (0 : Nat) ≤ 3 := by decide
  unfold Capture.updateMic
  split
  · split
    · exact hzero
    · exact ⟨by dsimp only; omega, hgood⟩
  · exact ⟨Nat.zero_le _, hgood⟩
  · split
    · exact hzero
    · exact ⟨hstuck, by dsimp only; omega⟩
  · exact ⟨hstuck, Nat.zero_le _⟩
  · exact ⟨hstuck, hgood⟩

theorem Capture.InRange.complete {c : Capture} (h : c.InRange) (straps : Straps) (d : Option Int) :
    (c.complete straps d).1.InRange := by
  unfold Capture.complete
  dsimp only
  split
  · exact h
  · exact Capture.InRange.updateMic (by exact h) _

theorem Key.sample_count {k : Key} (h : k.count ≤ 4) (pressed : Bool) : (k.sample pressed).count ≤ 4 := by
  unfold Key.sample
  split
  · exact Nat.zero_le _
  · split
    · dsimp only
      omega
    · exact Nat.zero_le _

theorem KeyUnit.InRange.sampleKeys {k : KeyUnit} (h : k.InRange) (p : KeyPins) : (k.sampleKeys p).InRange :=
  ⟨Key.sample_count h.1 _, Key.sample_count h.2.1 _, h.2.2⟩

theorem KeyUnit.InRange.onSync {k : KeyUnit} (h : k.InRange) (old new : SyncState) :
    (k.onSync old new).InRange := by
  obtain ⟨hA, hB, hblink⟩ := h
  unfold KeyUnit.onSync
  split
  · split
    · exact ⟨hA, hB, hblink⟩
    · exact ⟨hA, hB, Nat.zero_le _⟩
  · exact ⟨hA, hB, Nat.zero_le _⟩

theorem KeyUnit.InRange.blinkTick {k : KeyUnit} (h : k.InRange) (before after : SyncState) :
    (k.blinkTick before after).InRange := by
  obtain ⟨hA, hB, hblink⟩ := h
  unfold KeyUnit.blinkTick blinkCycles
  split
  · split
    · exact ⟨hA, hB, by dsimp only; omega⟩
    · exact ⟨hA, hB, Nat.zero_le _⟩
  · exact ⟨hA, hB, hblink⟩

/-! ## Peer table (Table 5-5) -/

theorem PeerEntry.absent_sound : PeerEntry.absent.Sound := ⟨rfl, rfl⟩

theorem ownEntry_sound (sync : SyncState) : (ownEntry sync).Sound := by
  unfold ownEntry
  split
  · exact ⟨rfl, rfl⟩
  · exact PeerEntry.absent_sound

theorem PeerEntry.Sound.onGood {p : PeerEntry} (h : p.Sound) : p.onGood.Sound := by
  rcases p with ⟨_ | _ | _ | _ | _, good, miss⟩ <;> obtain ⟨rfl, -⟩ := h <;> exact ⟨rfl, rfl⟩

theorem PeerEntry.Sound.onMiss {p : PeerEntry} (h : p.Sound) : p.onMiss.Sound := by
  rcases p with ⟨presence, good, miss⟩
  cases presence with
  | absent => exact PeerEntry.absent_sound
  | arriving => exact PeerEntry.absent_sound
  | present => exact ⟨rfl, .inl rfl⟩
  | missing =>
    obtain ⟨-, rfl | rfl⟩ := h
    · exact ⟨rfl, .inr rfl⟩
    · exact PeerEntry.absent_sound
  | foreign =>
    unfold PeerEntry.onMiss
    dsimp only
    split
    · exact ⟨rfl, by dsimp only; omega⟩
    · exact PeerEntry.absent_sound

theorem PeerEntry.Sound.update {p : PeerEntry} (h : p.Sound) (fingerprint : BitVec 8) (r : Option Report) :
    (p.update fingerprint r).Sound := by
  unfold PeerEntry.update
  split
  · split
    · exact h.onGood
    · exact ⟨rfl, Nat.zero_le _⟩
  · exact h.onMiss

theorem PeersSound.update {t : PeerTable} (h : PeersSound t) (own : Addr) (fingerprint : BitVec 8)
    (entries : CensusEntries) : PeersSound (updatePeers own fingerprint entries t) := by
  intro a
  unfold updatePeers
  rw [ofFn_get]
  split
  · exact h a
  · exact (h a).update _ _

theorem PeersSound.put {t : PeerTable} (h : PeersSound t) (own : Addr) (sync : SyncState) :
    PeersSound (Sys2Proof.put t own (ownEntry sync)) := by
  intro a
  rw [put_get]
  split
  · exact ownEntry_sound sync
  · exact h a

theorem Census.reset_inRange : Census.reset.InRange :=
  ⟨Nat.zero_le _, Nat.zero_le _, fun a => by
    rw [Census.reset, replicate_get]
    exact PeerEntry.absent_sound⟩

/-! ## The census close -/

theorem ownSlotCollisions_le {sync : SyncState} {readback : Option Readback} {count : Nat} (h : count ≤ 1) :
    (ownSlotCollisions sync readback count).1 ≤ 1 := by
  unfold ownSlotCollisions
  split
  · split
    · exact Nat.zero_le _
    · split
      · dsimp only
        omega
      · exact Nat.zero_le _
    · exact h
  · exact h

/-- Beat unit and census unit together: what the census close keeps in range. -/
def State.CloseInRange (s : State) : Prop := s.beat.InRange ∧ s.census.InRange ∧ s.keys.InRange

section
variable {s : State}

theorem State.CloseInRange.setSync (h : s.CloseInRange) (new : SyncState) : (s.setSync new).CloseInRange := by
  obtain ⟨hbeat, ⟨hown, hwait, hpeers⟩, hkeys⟩ := h
  exact ⟨hbeat, ⟨hown, hwait, hpeers.put _ _⟩, hkeys.onSync _ _⟩

theorem State.CloseInRange.followHolder (h : s.CloseInRange) : s.followHolder.CloseInRange := h

theorem State.CloseInRange.observe (h : s.CloseInRange) : s.observe.1.CloseInRange := by
  obtain ⟨⟨hbar, hobs, hent⟩, ⟨hown, hwait, hpeers⟩, hkeys⟩ := h
  unfold State.observe State.changeSync
  dsimp only
  split
  · exact ⟨⟨hbar, hobs, hent⟩, ⟨hown, hwait, hpeers⟩, hkeys⟩
  · split
    · split
      · next hlt => exact ⟨⟨hbar, hlt.le, hent⟩, ⟨hown, hwait, hpeers⟩, hkeys⟩
      · refine State.CloseInRange.setSync ?_ _; exact ⟨⟨hbar, Nat.le_refl 2, Nat.zero_le _⟩, ⟨Nat.zero_le _, hwait, hpeers⟩, hkeys⟩
    · refine State.CloseInRange.setSync ?_ _; exact ⟨⟨hbar, Nat.zero_le _, hent⟩, ⟨hown, hwait, hpeers⟩, hkeys⟩

theorem State.CloseInRange.recheck (h : s.CloseInRange) : s.recheck.1.CloseInRange := by
  obtain ⟨⟨hbar, hobs, hent⟩, hcensus, hkeys⟩ := h
  unfold State.recheck State.changeSync
  dsimp only
  split
  · exact ⟨⟨hbar, hobs, hent⟩, hcensus, hkeys⟩
  · split
    · refine State.CloseInRange.setSync ?_ _; exact ⟨⟨hbar, Nat.zero_le _, hent⟩, hcensus, hkeys⟩
    · exact ⟨⟨hbar, hobs, hent⟩, hcensus, hkeys⟩

theorem State.CloseInRange.waitConflict (h : s.CloseInRange) : s.waitConflict.1.CloseInRange := by
  obtain ⟨⟨hbar, hobs, hent⟩, hcensus, hkeys⟩ := h
  unfold State.waitConflict State.changeSync
  dsimp only
  split
  · refine State.CloseInRange.setSync ?_ _; exact ⟨⟨hbar, Nat.zero_le _, hent⟩, hcensus, hkeys⟩
  · exact ⟨⟨hbar, hobs, hent⟩, hcensus, hkeys⟩

theorem State.CloseInRange.enterConflict (h : s.CloseInRange) : s.enterConflict.1.CloseInRange := by
  obtain ⟨⟨hbar, hobs, hent⟩, ⟨hown, hwait, hpeers⟩, hkeys⟩ := h
  refine State.CloseInRange.setSync ?_ _; exact ⟨⟨hbar, hobs, Nat.zero_le _⟩, ⟨hown, Nat.le_refl 250, hpeers⟩, hkeys⟩

theorem State.CloseInRange.becomeLocked (h : s.CloseInRange) : s.becomeLocked.1.CloseInRange :=
  h.setSync .locked

theorem State.CloseInRange.enter (h : s.CloseInRange) : s.enter.1.CloseInRange := by
  obtain ⟨⟨hbar, hobs, hent⟩, hcensus, hkeys⟩ := h
  unfold State.enter State.changeSync
  extract_lets mismatch
  split
  · refine State.CloseInRange.setSync ?_ _; exact ⟨⟨hbar, hobs, Nat.zero_le _⟩, hcensus, hkeys⟩
  · split
    · split
      · next hlt => exact ⟨⟨hbar, hobs, hlt.le⟩, hcensus, hkeys⟩
      · refine State.CloseInRange.becomeLocked ?_; exact ⟨⟨hbar, hobs, Nat.le_refl 2⟩, hcensus, hkeys⟩
    · exact ⟨⟨hbar, hobs, Nat.zero_le _⟩, hcensus, hkeys⟩
    · exact ⟨⟨hbar, hobs, hent⟩, hcensus, hkeys⟩

theorem State.CloseInRange.beatAtCensus (h : s.CloseInRange) (c : Bool) :
    (s.beatAtCensus c).1.CloseInRange := by
  unfold State.beatAtCensus
  split
  · exact h.observe
  · exact h.recheck
  · exact h.waitConflict
  · split
    · exact h.enterConflict
    · exact h.enter
  · split
    · exact h.enterConflict
    · exact h
  · exact h
  · exact h

/-! ### Lane manager -/

theorem State.cutOwnLane_inRange {d : Nat} (h : s.lanes.InRange d) (g : GateReason) :
    (s.cutOwnLane g).1.lanes.InRange d := by
  unfold State.cutOwnLane
  split
  · exact h
  · exact ⟨h.1, h.2.1, Nat.zero_le _⟩

theorem State.ownerSide_inRange {d : Nat} (h : s.lanes.InRange d) (before : LaneTable) (lost muteAll : Bool)
    (r : ElectionResult) : (s.ownerSide before lost muteAll r).1.lanes.InRange d := by
  have hclear : s.clearLaneFlags.lanes.InRange d := ⟨h.1, h.2.1, Nat.zero_le _⟩
  have hkeep : ∀ t l, (s.keepLane t muteAll l).lanes.InRange d := fun t l => by
    simpa only [LaneManager.InRange, State.keepLane_lanes_waitAge, State.keepLane_lanes_divergence,
      State.keepLane_lanes_laneCollisions] using h
  unfold State.ownerSide
  repeat' split
  all_goals first | exact h | exact hclear | exact hkeep _ _

theorem State.settleOwn_inRange {d : Nat} (h : s.lanes.InRange d) : s.settleOwn.1.lanes.InRange d := by
  unfold State.settleOwn
  split
  · exact ⟨Nat.zero_le _, h.2.1, h.2.2⟩
  · exact ⟨h.1, h.2.1, Nat.zero_le _⟩

theorem State.repaired_inRange {d : Nat} (h : s.lanes.InRange d) : s.repaired.1.lanes.InRange d := by
  unfold State.repaired
  split
  · exact State.cutOwnLane_inRange h .conflict
  · exact h

theorem State.compared_inRange {d : Nat} (h : s.lanes.InRange d) : s.compared.1.lanes.InRange (d + 1) := by
  obtain ⟨hage, hdiv, hcol⟩ := State.repaired_inRange h
  unfold State.compared
  split
  · unfold State.compareDigests
    split
    · exact ⟨hage, Nat.succ_le_succ hdiv, hcol⟩
    · exact ⟨hage, Nat.zero_le _, hcol⟩
  · exact ⟨hage, Nat.zero_le _, hcol⟩

theorem State.election_inRange {d : Nat} (h : s.lanes.InRange d) : s.election.1.lanes.InRange (d + 1) := by
  rw [State.election_eq]
  exact State.settleOwn_inRange (State.ownerSide_inRange (State.compared_inRange h) _ _ _ _)

theorem State.follow_inRange {d : Nat} (h : s.lanes.InRange d) : s.follow.1.lanes.InRange d :=
  ⟨h.1, Nat.zero_le _, h.2.2⟩

theorem State.lanesAtCensus_inRange {d : Nat} (h : s.lanes.InRange d) (c : Bool) :
    (s.lanesAtCensus c).1.lanes.InRange (d + 1) := by
  have hmore : ∀ {l : LaneManager}, l.InRange d → l.InRange (d + 1) := fun h =>
    ⟨h.1, Nat.le_succ_of_le h.2.1, h.2.2⟩
  have hconflict : s.conflictEntry.1.lanes.InRange d :=
    ⟨Nat.zero_le _, (State.cutOwnLane_inRange h .conflict).2.1, (State.cutOwnLane_inRange h .conflict).2.2⟩
  unfold State.lanesAtCensus
  split
  · exact State.election_inRange h
  · exact State.election_inRange h
  all_goals first
    | exact hmore h
    | (split
       · exact hmore (State.follow_inRange hconflict)
       · exact hmore (State.follow_inRange h))

theorem State.election_line (s : State) : s.election.1.line = s.repaired.1.line := by
  rw [State.election_eq, State.settleOwn_line, State.decided, State.ownerSide_line, State.compared]
  split
  · rw [State.compareDigests_line]
    rfl
  · rfl

theorem State.repaired_beatQuiet (s : State) : s.repaired.1.line.beatQuiet = s.line.beatQuiet := by
  unfold State.repaired
  split
  · exact s.cutOwnLane_line_beatQuiet .conflict
  · rfl

theorem State.election_beatQuiet (s : State) : s.election.1.line.beatQuiet = s.line.beatQuiet := by
  rw [State.election_line, State.repaired_beatQuiet]

theorem State.lanesAtCensus_beatQuiet (c : Bool) (s : State) :
    (s.lanesAtCensus c).1.line.beatQuiet = s.line.beatQuiet := by
  unfold State.lanesAtCensus
  split
  · exact s.election_beatQuiet
  · exact s.election_beatQuiet
  all_goals first
    | rfl
    | (split
       · exact s.cutOwnLane_line_beatQuiet .conflict
       · rfl)

/-! ### Rejoin and the whole census close -/

theorem State.Ranges.rejoin {d f : Nat} (h : s.Ranges d f) (r : SyncReason) : (s.rejoin r).1.Ranges 3 2 where
  capture := by rw [State.rejoin_capture]; exact h.capture
  quiet := by rw [State.rejoin_line]; exact h.quiet
  failures := by rw [State.rejoin_beat_failures]; exact Nat.zero_le _
  beat := ⟨by simp, by simp, by simp⟩
  census := by rw [State.rejoin_census]; exact Census.reset_inRange
  lanes := by rw [State.rejoin_lanes]; exact ⟨Nat.zero_le _, Nat.zero_le _, Nat.zero_le _⟩
  keys := by rw [State.rejoin_keys]; exact h.keys.onSync _ _
  summary := by rw [State.rejoin_status]; exact h.summary
  mix := by rw [State.rejoin_mix]; exact h.mix

theorem State.Ranges.raise {d f : Nat} (h : s.Ranges d f) (bs : List RecordBody) : (s.raise bs).Ranges d f :=
  { h with summary := by rw [State.raise_status, StatusPort.pushAll_summaryCount]; exact h.summary }

theorem State.closeCensus_frame (s : State) : s.closeCensus = { s with census := s.closeCensus.census } := rfl

theorem State.Ranges.closeCensus {d f : Nat} (h : s.Ranges d f) : s.closeCensus.Ranges d f := by
  rw [State.closeCensus_frame]
  obtain ⟨hown, hwait, hpeers⟩ := h.census
  exact { h with
    census := ⟨ownSlotCollisions_le hown, hwait, hpeers.update s.own s.keys.fingerprint s.census.entries⟩ }

theorem State.Ranges.beatAtCensus {d f : Nat} (h : s.Ranges d f) (c : Bool) :
    (s.beatAtCensus c).1.Ranges d f := by
  obtain ⟨hbeat, hcensus, hkeys⟩ := State.CloseInRange.beatAtCensus ⟨h.beat, h.census, h.keys⟩ c
  refine ⟨?_, ?_, ?_, hbeat, hcensus, ?_, hkeys, ?_, ?_⟩
  · rw [State.beatAtCensus_capture]
    exact h.capture
  · rw [State.beatAtCensus_line]
    exact h.quiet
  · rw [State.beatAtCensus_beat_failures]
    exact h.failures
  · rw [State.beatAtCensus_lanes]
    exact h.lanes
  · rw [State.beatAtCensus_status]
    exact h.summary
  · rw [State.beatAtCensus_mix]
    exact h.mix

theorem State.Ranges.lanesAtCensus {d f : Nat} (h : s.Ranges d f) (c : Bool) :
    (s.lanesAtCensus c).1.Ranges (d + 1) f where
  capture := by rw [State.lanesAtCensus_capture]; exact h.capture
  quiet := by rw [State.lanesAtCensus_beatQuiet]; exact h.quiet
  failures := by rw [State.lanesAtCensus_beat]; exact h.failures
  beat := by rw [State.lanesAtCensus_beat]; exact h.beat
  census := by rw [State.lanesAtCensus_census]; exact h.census
  lanes := State.lanesAtCensus_inRange h.lanes c
  keys := by rw [State.lanesAtCensus_keys]; exact h.keys
  summary := by rw [State.lanesAtCensus_status]; exact h.summary
  mix := by rw [State.lanesAtCensus_mix]; exact h.mix

/-- A divergence counter of 4 does not stay: the node rejoins (R122). -/
theorem State.Ranges.rejoinIfDiverged (h : s.Ranges 4 2) : s.rejoinIfDiverged.1.Ranges 3 2 := by
  rcases s.rejoinIfDiverged_cases with ⟨-, hr⟩ | ⟨hdiv, hr⟩ <;> rw [hr]
  · exact h.rejoin .diverged
  · exact { h with lanes := ⟨h.lanes.1, Nat.le_of_lt_succ hdiv, h.lanes.2.2⟩ }

theorem State.Ranges.censusClose (h : s.Ranges 3 2) : s.censusClose.Ranges 3 2 := by
  rw [State.censusClose_eq]
  exact State.Ranges.raise (((h.closeCensus.beatAtCensus _).lanesAtCensus _).rejoinIfDiverged) _

/-! ## Cycle starts -/

theorem State.Ranges.beginCycle {d f : Nat} (h : s.Ranges d f) (cs : CycleStart) (rejoins : Bool) :
    (s.beginCycle cs rejoins).1.Ranges d f where
  capture := by rw [State.beginCycle_capture]; exact h.capture.complete _ _
  quiet := by rw [State.beginCycle_line, Line.openSpans_beatQuiet, State.leaveCycle_line_beatQuiet]; exact h.quiet
  failures := by rw [State.beginCycle_beat_failures]; exact h.failures
  beat := by
    obtain ⟨hbar, hobs, hent⟩ := h.beat
    refine ⟨?_, ?_, ?_⟩
    · rw [State.beginCycle_beat_barred]
      exact (Nat.sub_le _ 1).trans hbar
    · rw [State.beginCycle_beat_obsCount]
      exact hobs
    · rw [State.beginCycle_beat_entCount]
      exact hent
  census := by
    obtain ⟨hown, hwait, hpeers⟩ := h.census
    refine ⟨?_, ?_, ?_⟩
    · rw [State.beginCycle_census_ownCollisions]
      exact hown
    · rw [State.beginCycle_census_conflictWait]
      split <;> omega
    · rw [State.beginCycle_census_peers]
      split
      · exact hpeers
      · exact hpeers.put _ _
  lanes := by rw [State.beginCycle_lanes]; exact h.lanes
  keys := by
    rw [State.beginCycle_keys]
    refine KeyUnit.InRange.sampleKeys (KeyUnit.InRange.blinkTick ?_ _ _) _
    split
    · exact h.keys
    · exact h.keys.onSync _ _
  summary := by rw [State.beginCycle_status]; exact h.summary
  mix := by
    rw [State.beginCycle_mix]
    unfold State.leaveCycle
    split
    · rw [State.realign_mix]
      exact ⟨by rw [Mix.cycleStart, State.closeLanes_mix_oclk]; exact h.mix.1,
        by rw [Mix.cycleStart, State.closeLanes_mix_oclk]; exact h.mix.2⟩
    · exact h.mix

theorem State.Ranges.summaryTick {d f : Nat} (h : s.Ranges d f) : s.summaryTick.1.Ranges d f := by
  unfold State.summaryTick summaryCycles
  split
  · next hlt => exact { h with summary := Nat.le_of_lt_succ hlt }
  · exact { h with summary := Nat.zero_le _ }

/-- A cycle start keeps the ranges; beat failures reach 3 at a rejoin only (R63). -/
theorem State.Ranges.cycleStart {f : Nat} (h : s.Ranges 3 f) (cs : CycleStart) (rejoins : Bool)
    (hf : f ≤ 2 ∨ rejoins = true) : (s.cycleStart cs rejoins).Ranges 3 2 := by
  obtain ⟨bs, he⟩ := s.cycleStart_spec cs rejoins
  rw [he]
  refine State.Ranges.raise (State.Ranges.summaryTick ?_) bs
  cases rejoins with
  | true => exact (h.beginCycle cs true).rejoin .lost
  | false =>
    have hf : f ≤ 2 := hf.resolve_right nofun
    exact { h.beginCycle cs false with failures := (h.beginCycle cs false).failures.trans hf }

theorem State.LeadsTo.ranges {u v : State} {cs : CycleStart} {rejoins : Bool} (h : u.LeadsTo v cs rejoins)
    (hu : u.Ranges 3 2) : ∃ f, v.Ranges 3 f ∧ (f ≤ 2 ∨ rejoins = true) := by
  have hrest : ∀ f, v.beat.failures ≤ f → v.Ranges 3 f := by
    obtain ⟨hbar, hobs, hent⟩ := hu.beat
    obtain ⟨hown, hwait, hpeers⟩ := hu.census
    intro f hf
    have hv := h.frame
    refine ⟨?_, ?_, hf, ⟨?_, ?_, ?_⟩, ?_, ?_, ?_, ?_, ?_⟩
    · rw [hv]
      exact hu.capture
    · rcases h.beatQuiet with he | he <;> rw [he]
      · exact hu.quiet
      · exact Nat.zero_le _
    · rw [h.barredKept]
      exact hbar
    · rcases h.observation with he | he <;> rw [he]
      · exact hobs
      · exact Nat.zero_le _
    · rw [h.entering]
      exact hent
    · rw [h.census]
      refine ⟨?_, hwait, hpeers⟩
      rcases h.ownCollisions with he | he <;> dsimp only <;> rw [he]
      · exact hown
      · exact Nat.zero_le _
    · rw [hv]
      exact hu.lanes
    · rw [hv]
      exact hu.keys
    · rw [hv]
      exact hu.summary
    · rw [hv]
      exact hu.mix
  have hfail := hu.failures
  rcases h.failures with he | he | ⟨he, hlt | hrejoins⟩
  · exact ⟨0, hrest 0 he.le, .inl (Nat.zero_le _)⟩
  · exact ⟨2, hrest 2 (he.trans_le hfail), .inl (Nat.le_refl _)⟩
  · exact ⟨2, hrest 2 (Nat.le_of_lt_succ hlt), .inl (Nat.le_refl _)⟩
  · exact ⟨3, hrest 3 (he.trans_le (Nat.succ_le_succ hfail)), .inr hrejoins⟩

/-! ## The effects -/

theorem State.Ranges.elapse {d f : Nat} (h : s.Ranges d f) (n : Nat) : (s.elapse n).Ranges d f :=
  { h with
    quiet := Nat.min_le_left _ _
    mix := by
      obtain ⟨hlt, hmod⟩ := h.mix
      refine ⟨Nat.mod_lt _ (by decide), ?_⟩
      simp only [State.elapse_mix, Mix.elapse]
      omega }

theorem State.Ranges.startBeat {d f : Nat} (h : s.Ranges d f) (kind : BeatKind) :
    (s.startBeat kind).Ranges d f := by
  unfold State.startBeat
  split
  · exact { h with }
  · exact { h with }

theorem State.Ranges.requestBeat {d f : Nat} (h : s.Ranges d f) (kind : BeatKind) :
    (s.requestBeat kind).Ranges d f := by
  unfold State.requestBeat
  split
  · exact { h with }
  · exact h.startBeat kind

theorem State.Ranges.publish {d f : Nat} (h : s.Ranges d f) (p : Processing) : (s.publish p).Ranges d f := by
  unfold State.publish State.bindDetectorRead
  dsimp only
  split
  · exact { h with }
  · exact { h with }

theorem waitAgeAfter_le {old new : Request} {wait : Nat} : waitAgeAfter old new wait ≤ 255 := by
  unfold waitAgeAfter satSucc
  split
  · exact Nat.zero_le _
  · split
    · exact Nat.min_le_left _ _
    · decide

theorem State.Ranges.ownReportSlot {d f : Nat} (h : s.Ranges d f) : s.ownReportSlot.Ranges d f := by
  unfold State.ownReportSlot
  refine State.Ranges.raise ?_ _
  split
  · exact { h with lanes := ⟨waitAgeAfter_le, h.lanes.2.1, h.lanes.2.2⟩ }
  · exact { h with lanes := ⟨waitAgeAfter_le, h.lanes.2.1, h.lanes.2.2⟩ }

theorem State.Ranges.receiveReport {d f : Nat} (h : s.Ranges d f) (slot : Addr) (rx : SlotRx) :
    (s.receiveReport slot rx).Ranges d f := by
  unfold State.receiveReport
  dsimp only
  split
  · exact { h with }
  · split
    · exact { h with }
    · exact { h with }

theorem State.Ranges.takeLaneOutcome {d f : Nat} (h : s.Ranges d f) (o : Readback) :
    (s.takeLaneOutcome o).Ranges d f := by
  unfold State.takeLaneOutcome
  split
  · refine State.Ranges.raise ?_ _
    unfold State.countLaneOutcome
    cases o with
    | clean => exact { h with lanes := ⟨h.lanes.1, h.lanes.2.1, Nat.zero_le _⟩ }
    | collision =>
      dsimp only
      split
      · next hlt => exact { h with lanes := ⟨h.lanes.1, h.lanes.2.1, Nat.le_of_lt_succ hlt⟩ }
      · unfold State.cutOwnLane
        split
        · exact { h with }
        · exact { h with lanes := ⟨h.lanes.1, h.lanes.2.1, Nat.zero_le _⟩ }
  · exact h

theorem State.Ranges.handSet {d f : Nat} (h : s.Ranges d f) : s.handSet.Ranges d f := by
  unfold State.handSet
  split
  · exact { h with }
  · exact h

theorem Mix.endFormation_oclk (m : Mix) : m.endFormation.1.oclk = m.oclk := by
  unfold Mix.endFormation
  split <;> rfl

theorem State.Ranges.mixFormed {d f : Nat} (h : s.Ranges d f) :
    State.Ranges d f { s with mix := s.mix.endFormation.1 } := by
  refine { h with mix := ?_ }
  rw [Mix.InRange, Mix.endFormation_oclk]
  exact h.mix

theorem State.Ranges.startTx {d f : Nat} (h : s.Ranges d f) (start : Nat) :
    State.Ranges d f { s with status := s.status.startTx start } := by
  refine { h with summary := ?_ }
  unfold StatusPort.startTx
  split <;> exact h.summary

end

theorem State.Acts.keeps_ranges {u t : State} (h : u.Acts t) (hu : u.Ranges 3 2) : t.Ranges 3 2 := by
  cases h with
  | nothing => exact hu
  | cycleStarted h =>
    obtain ⟨f, hv, hf⟩ := h.ranges hu
    exact hv.cycleStart _ _ hf
  | beatRequested kind c p h => refine State.Ranges.requestBeat ?_ kind; exact { hu with }
  | beatDeferred kind => exact hu.startBeat kind
  | candidateDropped => exact { hu with quiet := Nat.zero_le _ }
  | beatRefounded => exact { hu with quiet := Nat.zero_le _ }
  | beatBarred => exact { hu with quiet := Nat.zero_le _, beat := ⟨Nat.le_refl 250, hu.beat.2⟩ }
  | beatEnded => exact { hu with quiet := Nat.zero_le _, failures := Nat.zero_le _ }
  | published p h hread => exact hu.publish p
  | ownReport => exact hu.ownReportSlot
  | reportReceived slot rx => exact hu.receiveReport slot rx
  | stoppedLaneEnded rest o => refine State.Ranges.takeLaneOutcome ?_ o; exact { hu with }
  | laneEnded o => refine State.Ranges.takeLaneOutcome ?_ o; exact { hu with }
  | laneReceived lane rx => refine State.Ranges.handSet ?_; exact { hu with }
  | mixFormed => exact hu.mixFormed.raise _
  | censusClosed h => exact hu.censusClose
  | recordStarted start => exact hu.startTx start
  | sampleTaken | pdmSampled | waitOpened | takerFixed | candidateFound | reportEnded | laneStarted
  | frameStarted | recordEnded => exact { hu with }

theorem State.reset_ranges : State.reset.Ranges 3 2 where
  capture := by simp only [State.reset, Capture.InRange]; decide
  quiet := by decide
  failures := by decide
  beat := by simp only [State.reset, Beat.InRange]; decide
  census := Census.reset_inRange
  lanes := ⟨Nat.zero_le _, Nat.zero_le _, Nat.zero_le _⟩
  keys := ⟨Nat.zero_le _, Nat.zero_le _, Nat.zero_le _⟩
  summary := by decide
  mix := ⟨by decide, rfl⟩

/-- Settles O60: every block keeps its counters in range, and a rejoin clears what would leave its range. -/
theorem everyStepKeepsCountersInRange : Obligations.EveryStepKeepsCountersInRange := by
  intro s t _ hs h
  rw [State.countersInRange_iff] at hs ⊢
  refine step_keeps (P := State.Ranges 3 2) (fun _ _ hs => { hs with })
    (fun _ => { State.reset_ranges with }) ?_
    (fun n _ _ hs => hs.elapse n) (fun _ _ _ hs ha => ha.keeps_ranges hs) hs h
  intro s straps keys _ hs
  refine State.Ranges.raise ?_ _
  exact { hs with keys := KeyUnit.InRange.sampleKeys hs.keys keys }

end Sys2Proof.Machine

/-! SUPPORT. What stays of the node itself, and legal lane tables. -/

namespace Sys2Proof.Machine

/-! ## The node itself -/

theorem State.rejoinIfDiverged_inReset (s : State) : s.rejoinIfDiverged.1.inReset = s.inReset := by
  rcases s.rejoinIfDiverged_cases with ⟨-, h⟩ | ⟨-, h⟩ <;> simp [h]

theorem State.rejoinIfDiverged_straps (s : State) :
    s.rejoinIfDiverged.1.keys.straps = s.keys.straps := by
  rcases s.rejoinIfDiverged_cases with ⟨-, h⟩ | ⟨-, h⟩ <;> simp [h]

theorem State.lanesClosed_inReset (s : State) : s.lanesClosed.1.inReset = s.inReset := by
  rw [State.lanesClosed, State.lanesAtCensus_inReset, State.beatClosed, State.beatAtCensus_inReset]
  rfl

theorem State.lanesClosed_straps (s : State) : s.lanesClosed.1.keys.straps = s.keys.straps := by
  rw [State.lanesClosed, State.lanesAtCensus_keys, State.beatClosed, State.beatAtCensus_keys_straps]
  rfl

theorem State.censusClose_inReset (s : State) : s.censusClose.inReset = s.inReset := by
  rw [State.censusClose_eq, State.raise_inReset, State.rejoinIfDiverged_inReset, State.lanesClosed_inReset]

theorem State.censusClose_straps (s : State) : s.censusClose.keys.straps = s.keys.straps := by
  rw [State.censusClose_eq, State.raise_keys, State.rejoinIfDiverged_straps, State.lanesClosed_straps]

theorem State.afterCycleStart_inReset (cs : CycleStart) (rejoins : Bool) (s : State) :
    (s.afterCycleStart cs rejoins).inReset = s.inReset := by
  cases rejoins <;> simp [State.afterCycleStart]

theorem State.afterCycleStart_straps (cs : CycleStart) (rejoins : Bool) (s : State) :
    (s.afterCycleStart cs rejoins).keys.straps = s.keys.straps := by
  by_cases h : cs.sync = s.beat.sync <;> cases rejoins <;> simp [State.afterCycleStart, h]

/-- No effect ends the operation or changes the straps. -/
theorem State.Acts.node {u t : State} (h : u.Acts t) :
    t.inReset = u.inReset ∧ t.keys.straps = u.keys.straps := by
  cases h with
  | cycleStarted h =>
    rw [State.cycleStart_inReset, State.cycleStart_keys, State.afterCycleStart_inReset,
      State.afterCycleStart_straps, h.frame]
    exact ⟨rfl, rfl⟩
  | beatRequested kind c p h => rw [State.requestBeat_frame]; exact ⟨rfl, rfl⟩
  | beatDeferred kind => rw [State.startBeat_frame]; exact ⟨rfl, rfl⟩
  | published p h hread => rw [State.publish_frame]; exact ⟨rfl, rfl⟩
  | ownReport => rw [State.ownReportSlot_frame]; exact ⟨rfl, rfl⟩
  | reportReceived slot rx => rw [State.receiveReport_frame]; exact ⟨rfl, rfl⟩
  | stoppedLaneEnded rest o => rw [State.takeLaneOutcome_frame]; exact ⟨rfl, rfl⟩
  | laneEnded o => rw [State.takeLaneOutcome_frame]; exact ⟨rfl, rfl⟩
  | laneReceived lane rx => rw [State.handSet_frame]; exact ⟨rfl, rfl⟩
  | censusClosed h => exact ⟨u.censusClose_inReset, u.censusClose_straps⟩
  | nothing | sampleTaken | pdmSampled | waitOpened | takerFixed | candidateFound | candidateDropped
  | beatRefounded | beatBarred | beatEnded | reportEnded | laneStarted | mixFormed | frameStarted
  | recordStarted | recordEnded => exact ⟨rfl, rfl⟩

theorem State.Acts.inReset {u t : State} (h : u.Acts t) : t.inReset = u.inReset := h.node.1

theorem State.Acts.own {u t : State} (h : u.Acts t) : t.own = u.own := congrArg Straps.addr h.node.2

theorem State.Acts.laneCount {u t : State} (h : u.Acts t) : t.laneCount = u.laneCount :=
  congrArg Straps.laneCount h.node.2

/-! ## Held in reset -/

theorem State.heldInReset_of_running {s : State} (h : s.inReset = false) : s.HeldInReset :=
  fun hr => nomatch h.symm.trans hr

theorem State.HeldInReset.withPending {s : State} (h : s.HeldInReset) (q : List Instr) :
    State.HeldInReset { s with pending := q } := by
  intro hr
  have hs := h hr
  rw [hs]

theorem State.resetOf_held (s : State) : s.resetOf.HeldInReset := fun _ => rfl

/-! ## Lane tables (R84, R99) -/

/-- Both tables are legal with `m` lanes, and the digest is that of the table. -/
def LaneManager.TablesFit (m : Nat) (l : LaneManager) : Prop :=
  l.table.Legal m ∧ l.slotCopy.Legal m ∧ l.digest = l.table.digest

theorem LaneManager.reset_digest : LaneManager.reset.digest = LaneManager.reset.table.digest := by
  simp only [LaneManager.reset]
  exact LaneTable.allFree_digest.symm

theorem LaneManager.reset_tablesFit (m : Nat) : LaneManager.reset.TablesFit m :=
  ⟨LaneTable.allFree_legal m, LaneTable.allFree_legal m, LaneManager.reset_digest⟩

section
variable {s : State} {m : Nat}

theorem State.cutOwnLane_tablesFit (h : s.lanes.TablesFit m) (g : GateReason) :
    (s.cutOwnLane g).1.lanes.TablesFit m := by
  obtain ⟨htable, hcopy, hdigest⟩ := h
  refine ⟨?_, ?_, s.cutOwnLane_digest g hdigest⟩
  · rw [State.cutOwnLane_table]
    exact htable.without _
  · rw [State.cutOwnLane_slotCopy]
    exact hcopy.without _

theorem State.election_tablesFit (h : s.lanes.TablesFit s.laneCount) :
    s.election.1.lanes.TablesFit s.laneCount := by
  obtain ⟨htable, hcopy, hdigest⟩ := h
  refine ⟨?_, ?_, s.election_digest⟩
  · rw [State.election_table]
    refine elect_legal (d := s.delivery) (repairTable_legal _ ?_)
    split
    · exact htable.without _
    · exact htable
  · rw [State.election_slotCopy]
    split
    · exact hcopy.without _
    · exact hcopy

theorem State.follow_tablesFit (h : s.lanes.TablesFit s.laneCount) :
    s.follow.1.lanes.TablesFit s.laneCount := by
  obtain ⟨htable, hcopy, hdigest⟩ := h
  refine ⟨?_, hcopy, rfl⟩
  rw [State.follow_table]
  exact followTable_legal htable

theorem State.lanesAtCensus_tablesFit (h : s.lanes.TablesFit s.laneCount) (c : Bool) :
    (s.lanesAtCensus c).1.lanes.TablesFit s.laneCount := by
  have hconflict : s.conflictEntry.1.lanes.TablesFit s.conflictEntry.1.laneCount := by
    rw [State.conflictEntry_laneCount]
    exact State.cutOwnLane_tablesFit h .conflict
  unfold State.lanesAtCensus
  split
  · exact State.election_tablesFit h
  · exact State.election_tablesFit h
  all_goals first
    | exact h
    | (split
       · have := State.follow_tablesFit hconflict
         rwa [State.conflictEntry_laneCount] at this
       · exact State.follow_tablesFit h)

theorem State.rejoinIfDiverged_tablesFit (h : s.lanes.TablesFit m) :
    s.rejoinIfDiverged.1.lanes.TablesFit m := by
  rcases s.rejoinIfDiverged_cases with ⟨-, hr⟩ | ⟨-, hr⟩ <;> rw [hr]
  · rw [State.rejoin_lanes]
    exact LaneManager.reset_tablesFit m
  · exact h

theorem State.censusClose_tablesFit (h : s.lanes.TablesFit s.laneCount) :
    s.censusClose.lanes.TablesFit s.laneCount := by
  rw [State.censusClose_eq, State.raise_lanes]
  refine State.rejoinIfDiverged_tablesFit ?_
  have hb : s.beatClosed.1.lanes.TablesFit s.beatClosed.1.laneCount := by
    rw [State.beatClosed, State.beatAtCensus_lanes, State.beatAtCensus_laneCount]
    exact h
  have := State.lanesAtCensus_tablesFit hb s.slotConflict
  rwa [State.beatClosed, State.beatAtCensus_laneCount] at this

theorem State.afterCycleStart_tablesFit (h : s.lanes.TablesFit m) (cs : CycleStart) (rejoins : Bool) :
    (s.afterCycleStart cs rejoins).lanes.TablesFit m := by
  unfold State.afterCycleStart
  rw [State.summaryTick_lanes]
  cases rejoins with
  | true =>
    rw [if_pos rfl, State.rejoin_lanes]
    exact LaneManager.reset_tablesFit m
  | false =>
    rw [if_neg (by decide), State.beginCycle_lanes]
    exact ⟨h.1, h.1, h.2.2⟩

theorem State.publish_tablesFit (h : s.lanes.TablesFit m) (p : Processing) :
    (s.publish p).lanes.TablesFit m := by
  unfold State.publish State.bindDetectorRead
  dsimp only
  split <;> exact h

theorem State.takeLaneOutcome_tablesFit (h : s.lanes.TablesFit m) (o : Readback) :
    (s.takeLaneOutcome o).lanes.TablesFit m := by
  unfold State.takeLaneOutcome
  split
  · unfold State.countLaneOutcome
    cases o with
    | clean => exact h
    | collision =>
      dsimp only
      rw [State.raise_lanes]
      split
      · exact h
      · exact State.cutOwnLane_tablesFit h .conflict
  · exact h

end

theorem State.Acts.keeps_tables {u t : State} (h : u.Acts t) (hu : u.lanes.TablesFit u.laneCount) :
    t.lanes.TablesFit u.laneCount := by
  cases h with
  | cycleStarted h =>
    rw [State.cycleStart_lanes]
    refine State.afterCycleStart_tablesFit ?_ _ _
    rw [h.frame]
    exact hu
  | beatRequested kind c p h => rw [State.requestBeat_frame]; exact hu
  | beatDeferred kind => rw [State.startBeat_frame]; exact hu
  | published p h hread => exact State.publish_tablesFit hu p
  | ownReport => rw [State.ownReportSlot_frame]; exact hu
  | reportReceived slot rx => rw [State.receiveReport_frame]; exact hu
  | stoppedLaneEnded rest o => refine State.takeLaneOutcome_tablesFit ?_ o; exact hu
  | laneEnded o => refine State.takeLaneOutcome_tablesFit ?_ o; exact hu
  | laneReceived lane rx => rw [State.handSet_frame]; exact hu
  | censusClosed h => exact State.censusClose_tablesFit hu
  | nothing | sampleTaken | pdmSampled | waitOpened | takerFixed | candidateFound | candidateDropped
  | beatRefounded | beatBarred | beatEnded | reportEnded | laneStarted | mixFormed | frameStarted
  | recordStarted | recordEnded => exact hu

theorem State.tablesSound_iff {s : State} :
    s.TablesSound ↔ s.HeldInReset ∧ s.lanes.TablesFit s.laneCount :=
  ⟨fun h => ⟨h.held, h.table, h.copy, h.digest⟩,
    fun ⟨hheld, htable, hcopy, hdigest⟩ => ⟨hheld, htable, hcopy, hdigest⟩⟩

/-- Settles O56: the election, follow mode and cuts keep a table legal, and write the digest with it; the
release of the reset, which samples M, finds both tables free. -/
theorem everyStepKeepsLaneTablesLegal : Obligations.EveryStepKeepsLaneTablesLegal := by
  intro s t hs h
  rw [State.tablesSound_iff] at hs ⊢
  refine step_keeps (P := fun s => s.HeldInReset ∧ s.lanes.TablesFit s.laneCount)
    (fun _ _ hs => ⟨hs.1.withPending _, hs.2⟩)
    (fun s => ⟨s.resetOf_held, LaneManager.reset_tablesFit _⟩) ?_
    (fun n s hr hs => ⟨State.heldInReset_of_running hr, hs.2⟩) ?_ hs h
  · intro s straps keys hr hs
    refine ⟨State.heldInReset_of_running rfl, ?_⟩
    have hlanes : (s.release straps keys).lanes = LaneManager.reset := by
      rw [hs.1 hr]
      rfl
    rw [hlanes]
    exact LaneManager.reset_tablesFit _
  · intro u t hr hu ha
    refine ⟨State.heldInReset_of_running (ha.inReset.trans hr), ?_⟩
    rw [ha.laneCount]
    exact ha.keeps_tables hu.2

end Sys2Proof.Machine

/-! SUPPORT. What the sync state says of the node: the listed changes, and membership of the line. -/

namespace Sys2Proof.Machine

/-- What the census close keeps: what the lane manager leaves, or a rejoin, with records handed over. -/
theorem State.censusClose_induction {P : State → Prop} {s : State}
    (hraise : ∀ (t : State) (bs : List RecordBody), P t → P (t.raise bs))
    (hrejoin : ∀ t : State, P (t.rejoin .diverged).1) (hstay : P s.lanesClosed.1) : P s.censusClose := by
  rw [State.censusClose_eq]
  refine hraise _ _ ?_
  rcases s.lanesClosed.1.rejoinIfDiverged_cases with ⟨-, hr⟩ | ⟨-, hr⟩ <;> rw [hr]
  · exact hrejoin _
  · exact hstay

/-! ## The sync state under the effects (Table 4-3) -/

theorem State.startBeat_sync (kind : BeatKind) (s : State) : (s.startBeat kind).beat.sync = s.beat.sync := by
  unfold State.startBeat
  split <;> rfl

theorem State.requestBeat_sync (kind : BeatKind) (s : State) :
    (s.requestBeat kind).beat.sync = s.beat.sync := by
  unfold State.requestBeat
  split
  · rfl
  · exact s.startBeat_sync kind

theorem State.observe_moves {s : State} (h : s.beat.sync = .observing) :
    s.beat.sync.mayBecome s.observe.1.beat.sync := by
  rw [h]
  unfold State.observe State.changeSync
  dsimp only
  repeat' split
  · exact .inl h
  · exact .inl h
  · exact .inr (.inr (.inl rfl))
  · exact .inr (.inr (.inr rfl))

theorem State.recheck_moves {s : State} (h : s.beat.sync = .incompatible) :
    s.beat.sync.mayBecome s.recheck.1.beat.sync := by
  rw [h]
  unfold State.recheck State.changeSync
  dsimp only
  repeat' split
  · exact .inl h
  · exact .inr (.inr rfl)
  · exact .inl h

theorem State.waitConflict_moves {s : State} (h : s.beat.sync = .conflict) :
    s.beat.sync.mayBecome s.waitConflict.1.beat.sync := by
  rw [h]
  unfold State.waitConflict State.changeSync
  dsimp only
  split
  · exact .inr (.inr rfl)
  · exact .inl h

theorem State.enter_moves {s : State} (h : s.beat.sync = .entering) :
    s.beat.sync.mayBecome s.enter.1.beat.sync := by
  rw [h]
  unfold State.enter State.changeSync State.becomeLocked
  extract_lets mismatch
  split
  · exact .inr (.inr (.inr (.inl rfl)))
  · split
    · split
      · exact .inl h
      · exact .inr (.inr (.inl rfl))
    · exact .inl h
    · exact .inl h

/-- The beat unit's census-close decisions move the sync state along Table 4-3. -/
theorem State.beatAtCensus_moves (c : Bool) (s : State) :
    s.beat.sync.mayBecome (s.beatAtCensus c).1.beat.sync := by
  unfold State.beatAtCensus
  split
  · next h => exact State.observe_moves h
  · next h => exact State.recheck_moves h
  · next h => exact State.waitConflict_moves h
  · next h =>
    split
    · rw [h]
      exact .inr (.inr (.inr (.inr rfl)))
    · exact State.enter_moves h
  · next h =>
    split
    · rw [h]
      exact .inr (.inr rfl)
    · exact .inl rfl
  · exact .inl rfl
  · exact .inl rfl

theorem State.lanesClosed_beat (s : State) : s.lanesClosed.1.beat = s.beatClosed.1.beat := by
  rw [State.lanesClosed, State.lanesAtCensus_beat]

theorem State.censusClose_moves (s : State) : s.beat.sync.mayBecome s.censusClose.beat.sync := by
  refine State.censusClose_induction (P := fun t => s.beat.sync.mayBecome t.beat.sync) (fun _ _ h => h)
    (fun t => .inr (.inl (t.rejoin_beat_sync .diverged))) ?_
  rw [State.lanesClosed_beat]
  exact s.closeCensus.beatAtCensus_moves _

theorem State.cycleStart_sync (cs : CycleStart) (rejoins : Bool) (s : State) :
    (s.cycleStart cs rejoins).beat.sync = if rejoins then .listen else cs.sync := by
  rw [State.cycleStart_beat]
  cases rejoins <;> simp [State.afterCycleStart]

/-- A founding beat is under way in LISTEN only, so its end founds from LISTEN (R53). -/
theorem State.Acts.moves {u t : State} (h : u.Acts t) (hu : u.FoundingSound) :
    u.beat.sync.mayBecome t.beat.sync := by
  cases h with
  | @cycleStarted v cs rejoins h =>
    rw [State.cycleStart_sync]
    split
    · exact .inr (.inl rfl)
    · rcases h.moves with he | ⟨hu, he, -⟩ | ⟨hu, he | he⟩ | ⟨he, -, hsending⟩
      · exact .inl he
      · rw [hu, he]
        exact .inr (.inr (.inl rfl))
      · rw [hu, he]
        exact .inr (.inr rfl)
      · exact .inr (.inl he)
      · rw [hu (.inr hsending), he]
        exact .inr (.inr (.inr rfl))
  | beatRequested kind c p h => exact .inl (State.requestBeat_sync _ _)
  | beatDeferred kind => exact .inl (u.startBeat_sync kind)
  | published p h hread => rw [State.publish_frame]; exact .inl rfl
  | ownReport => rw [State.ownReportSlot_frame]; exact .inl rfl
  | reportReceived slot rx => rw [State.receiveReport_frame]; exact .inl rfl
  | stoppedLaneEnded rest o => rw [State.takeLaneOutcome_frame]; exact .inl rfl
  | laneEnded o => rw [State.takeLaneOutcome_frame]; exact .inl rfl
  | laneReceived lane rx => rw [State.handSet_frame]; exact .inl rfl
  | censusClosed h => exact u.censusClose_moves
  | nothing | sampleTaken | pdmSampled | waitOpened | takerFixed | candidateFound | candidateDropped
  | beatRefounded | beatBarred | beatEnded | reportEnded | laneStarted | mixFormed | frameStarted
  | recordStarted | recordEnded => exact .inl rfl

theorem Beat.elapse_request_idle {n : Nat} {b : Beat} {kind : BeatKind}
    (h : (b.elapse n).request = .waiting kind ∨ ∃ c age, (b.elapse n).request = .sending kind c age) :
    b.request = .waiting kind ∨ ∃ c age, b.request = .sending kind c age := by
  unfold Beat.elapse at h
  cases hr : b.request with
  | idle => simp [hr] at h
  | waiting k => simpa [hr] using h
  | sending k c age =>
    simp only [hr] at h
    rcases h with h | ⟨_, _, h⟩
    · cases h
    · cases h
      exact .inr ⟨_, _, rfl⟩

theorem State.FoundingSound.elapse {s : State} (h : s.FoundingSound) (n : Nat) : (s.elapse n).FoundingSound :=
  fun hr => h (Beat.elapse_request_idle hr)

/-- Settles O27: only cycle starts and census closes move the sync state, and each along the table. -/
theorem syncStateMovesAlongTheTable : Obligations.SyncStateMovesAlongTheTable := by
  intro c s t hs h
  rcases exec_cases h with rfl | ⟨-, rfl | ⟨straps, keys, rfl⟩⟩ | ⟨-, ha | ⟨n, ha⟩⟩
  · exact .inr (.inl rfl)
  · exact .inl rfl
  · exact .inl rfl
  · exact ha.moves hs
  · exact ha.moves (hs.elapse n)

/-! ## Founding beats (R35, R53) -/

theorem State.FoundingSound.startBeat {s : State} (kind : BeatKind) : (s.startBeat kind).FoundingSound := by
  unfold State.startBeat
  split
  · next hadmitted =>
    rintro (h | ⟨c, age, h⟩) <;> cases h
    exact of_decide_eq_true hadmitted
  · rintro (h | ⟨c, age, h⟩) <;> cases h

theorem State.FoundingSound.requestBeat {s : State} {kind : BeatKind}
    (h : kind = .founding → s.beat.sync = .listen) : (s.requestBeat kind).FoundingSound := by
  unfold State.requestBeat
  split
  · rintro (hr | ⟨c, age, hr⟩) <;> cases hr
    exact h rfl
  · exact .startBeat kind

theorem State.FoundingSound.of_idle {s : State} (h : s.beat.request = .idle) : s.FoundingSound := by
  rintro (hr | ⟨c, age, hr⟩) <;> cases h.symm.trans hr

/-- A cycle start leaves a founding request only as it was. -/
theorem BeatRequest.founding_atCycleStart {r : BeatRequest}
    (h : r.atCycleStart = .waiting .founding ∨ ∃ c age, r.atCycleStart = .sending .founding c age) :
    r.atCycleStart = r := by
  unfold BeatRequest.atCycleStart at h ⊢
  split at h
  · rcases h with h | ⟨c, age, h⟩ <;> cases h
  · rcases h with h | ⟨c, age, h⟩ <;> cases h
  · rfl

theorem State.afterCycleStart_request (cs : CycleStart) (rejoins : Bool) (s : State) :
    (s.afterCycleStart cs rejoins).beat.request =
      if rejoins then .idle else s.beat.request.atCycleStart := by
  cases rejoins <;> simp [State.afterCycleStart]

theorem State.LeadsTo.founding {u v : State} {cs : CycleStart} {rejoins : Bool} (h : u.LeadsTo v cs rejoins)
    (hu : u.FoundingSound) : (v.cycleStart cs rejoins).FoundingSound := by
  cases rejoins with
  | true =>
    refine .of_idle ?_
    rw [State.cycleStart_beat, State.afterCycleStart_request, if_pos rfl]
  | false =>
    intro hr
    rw [State.cycleStart_sync, if_neg (by decide)]
    rw [State.cycleStart_beat, State.afterCycleStart_request, if_neg (by decide)] at hr
    rw [BeatRequest.founding_atCycleStart hr] at hr
    have hbusy : v.beat.request ≠ .idle := by
      rintro he
      rw [he] at hr
      rcases hr with hr | ⟨c, age, hr⟩ <;> cases hr
    have hreq : v.beat.request = u.beat.request := h.request.resolve_right hbusy
    rw [hreq] at hr
    have hlisten := hu hr
    rcases h.moves with he | ⟨-, -, hidle⟩ | ⟨haligning, -⟩ | ⟨-, hidle, -⟩
    · exact he.trans hlisten
    · exact absurd hidle hbusy
    · rw [hlisten] at haligning
      cases haligning
    · exact absurd hidle hbusy

theorem State.lanesClosed_request (s : State) : s.lanesClosed.1.beat.request = s.beat.request := by
  rw [State.lanesClosed_beat, State.beatClosed, State.beatAtCensus_beat_request]
  rfl

theorem State.censusClose_founding {u : State} (hu : u.FoundingSound) (hsync : u.beat.sync.receives = true) :
    u.censusClose.FoundingSound := by
  refine State.censusClose_induction (fun _ _ h => h) (fun t => .of_idle (t.rejoin_beat_request .diverged)) ?_
  intro hr
  rw [State.lanesClosed_request] at hr
  rw [hu hr] at hsync
  cases hsync

theorem State.Acts.keeps_founding {u t : State} (h : u.Acts t) (hu : u.FoundingSound) : t.FoundingSound := by
  cases h with
  | cycleStarted h => exact h.founding hu
  | beatRequested kind c p h => exact .requestBeat h
  | beatDeferred kind => exact .startBeat kind
  | beatRefounded => exact .of_idle rfl
  | beatBarred => exact .of_idle rfl
  | beatEnded => exact .of_idle rfl
  | published p h hread => rw [State.publish_frame]; exact hu
  | ownReport => rw [State.ownReportSlot_frame]; exact hu
  | reportReceived slot rx => rw [State.receiveReport_frame]; exact hu
  | stoppedLaneEnded rest o => rw [State.takeLaneOutcome_frame]; exact hu
  | laneEnded o => rw [State.takeLaneOutcome_frame]; exact hu
  | laneReceived lane rx => rw [State.handSet_frame]; exact hu
  | censusClosed h => exact State.censusClose_founding hu h
  | nothing | sampleTaken | pdmSampled | waitOpened | takerFixed | candidateFound | candidateDropped
  | reportEnded | laneStarted | mixFormed | frameStarted | recordStarted | recordEnded => exact hu

/-! ## Candidate flag and own entry (R59, R80) -/

/-- The candidate flag and the own peer-table entry are those of the sync state. -/
def State.FlagsSound (s : State) : Prop := s.CandidateSound ∧ s.OwnEntrySound

theorem State.OwnEntrySound.of {t : State} {p : PeerTable} {a : Addr} {x : SyncState}
    (hpeers : t.census.peers = p) (hown : t.own = a) (hsync : t.beat.sync = x) (h : p[a] = ownEntry x) :
    t.OwnEntrySound := by
  subst hpeers hown hsync
  exact h

section
variable {s : State}

theorem State.closeCensus_flags (h : s.FlagsSound) : s.closeCensus.FlagsSound := by
  refine ⟨h.1, .of s.closeCensus_census_peers rfl rfl ?_⟩
  rw [updatePeers, ofFn_get, if_pos (show s.closeCensus.own = s.own from rfl)]
  exact h.2

theorem State.beatAtCensus_flags (h : s.FlagsSound) (c : Bool) : (s.beatAtCensus c).1.FlagsSound := by
  rcases s.beatAtCensus_sync c with ⟨hsync, hcand, hpeers⟩ | ⟨hcand, hpeers⟩
  · refine ⟨?_, .of hpeers (s.beatAtCensus_own c) hsync h.2⟩
    rw [State.CandidateSound, hcand, hsync, State.beatAtCensus_beat_barred]
    exact h.1
  · refine ⟨?_, .of hpeers (s.beatAtCensus_own c) rfl (put_get_self _ _ _)⟩
    rw [State.CandidateSound, State.beatAtCensus_beat_barred]
    exact hcand

theorem State.rejoin_flags (r : SyncReason) : (s.rejoin r).1.FlagsSound := by
  refine ⟨?_, .of (congrArg Census.peers (s.rejoin_census r)) rfl (s.rejoin_beat_sync r) ?_⟩
  · rw [State.CandidateSound, State.rejoin_beat_candidate, State.rejoin_beat_sync]
    rfl
  · exact replicate_get _ _

theorem State.beatClosed_flags (h : s.FlagsSound) : s.beatClosed.1.FlagsSound :=
  State.beatAtCensus_flags (State.closeCensus_flags h) _

theorem State.lanesAtCensus_flags (h : s.FlagsSound) (c : Bool) : (s.lanesAtCensus c).1.FlagsSound := by
  refine ⟨?_, .of (congrArg Census.peers (s.lanesAtCensus_census c)) (s.lanesAtCensus_own c)
    (congrArg Beat.sync (s.lanesAtCensus_beat c)) h.2⟩
  rw [State.CandidateSound, State.lanesAtCensus_beat]
  exact h.1

theorem State.FlagsSound.raise (h : s.FlagsSound) (bs : List RecordBody) : (s.raise bs).FlagsSound := h

theorem State.censusClose_flags (h : s.FlagsSound) : s.censusClose.FlagsSound :=
  State.censusClose_induction (fun _ bs h => h.raise bs) (fun _ => State.rejoin_flags .diverged)
    (State.lanesAtCensus_flags (State.beatClosed_flags h) _)

theorem State.beginCycle_flags (h : s.OwnEntrySound) (cs : CycleStart) (rejoins : Bool) :
    (s.beginCycle cs rejoins).1.FlagsSound := by
  refine ⟨?_, .of (s.beginCycle_census_peers cs rejoins) (s.beginCycle_own cs rejoins)
    (s.beginCycle_beat_sync cs rejoins) ?_⟩
  · rw [State.CandidateSound, State.beginCycle_beat_candidate, State.beginCycle_beat_sync,
      State.beginCycle_beat_barred]
    rfl
  · split
    · next he => exact h.trans (congrArg ownEntry he.symm)
    · exact put_get_self _ _ _

theorem State.afterCycleStart_flags (h : s.OwnEntrySound) (cs : CycleStart) (rejoins : Bool) :
    (s.afterCycleStart cs rejoins).FlagsSound := by
  have htick : ∀ {x : State}, x.FlagsSound → x.summaryTick.1.FlagsSound := fun {x} hx => by
    refine ⟨?_, .of (congrArg Census.peers x.summaryTick_census) x.summaryTick_own
      (congrArg Beat.sync x.summaryTick_beat) hx.2⟩
    rw [State.CandidateSound, State.summaryTick_beat]
    exact hx.1
  unfold State.afterCycleStart
  refine htick ?_
  split
  · exact State.rejoin_flags .lost
  · exact State.beginCycle_flags h cs rejoins

theorem State.LeadsTo.ownEntry {u v : State} {cs : CycleStart} {rejoins : Bool} (h : u.LeadsTo v cs rejoins)
    (hu : u.OwnEntrySound) : v.OwnEntrySound :=
  .of (congrArg Census.peers h.census) (congrArg State.own h.frame) h.syncKept hu

theorem State.FlagsSound.startBeat (h : s.FlagsSound) (kind : BeatKind) : (s.startBeat kind).FlagsSound := by
  unfold State.startBeat
  split <;> exact h

theorem State.FlagsSound.requestBeat (h : s.FlagsSound) (kind : BeatKind) :
    (s.requestBeat kind).FlagsSound := by
  unfold State.requestBeat
  split
  · exact h
  · exact h.startBeat kind

theorem State.FlagsSound.ownReportSlot (h : s.FlagsSound) : s.ownReportSlot.FlagsSound := by
  unfold State.ownReportSlot
  refine State.FlagsSound.raise ?_ _
  split <;> exact h

theorem State.FlagsSound.receiveReport (h : s.FlagsSound) (slot : Addr) (rx : SlotRx) :
    (s.receiveReport slot rx).FlagsSound := by
  unfold State.receiveReport
  dsimp only
  split
  · exact h
  · split <;> exact h

end

theorem State.Acts.keeps_flags {u t : State} (h : u.Acts t) (hu : u.FlagsSound) : t.FlagsSound := by
  cases h with
  | cycleStarted h =>
    obtain ⟨bs, he⟩ := State.cycleStart_spec _ _ _
    rw [he]
    exact State.afterCycleStart_flags (h.ownEntry hu.2) _ _
  | beatRequested kind c p h => refine State.FlagsSound.requestBeat ?_ kind; exact hu
  | beatDeferred kind => exact hu.startBeat kind
  | beatBarred =>
    refine ⟨?_, hu.2⟩
    show false = (decide (u.beat.sync = .locked) && decide (barCycles = 0))
    rw [show decide (barCycles = 0) = false from rfl, Bool.and_false]
  | published p h hread => rw [State.publish_frame]; exact hu
  | ownReport => exact hu.ownReportSlot
  | reportReceived slot rx => exact hu.receiveReport slot rx
  | stoppedLaneEnded rest o => rw [State.takeLaneOutcome_frame]; exact hu
  | laneEnded o => rw [State.takeLaneOutcome_frame]; exact hu
  | laneReceived lane rx => rw [State.handSet_frame]; exact hu
  | censusClosed h => exact State.censusClose_flags hu
  | nothing | sampleTaken | pdmSampled | waitOpened | takerFixed | candidateFound | candidateDropped
  | beatRefounded | beatEnded | reportEnded | laneStarted | mixFormed | frameStarted | recordStarted
  | recordEnded => exact hu

/-! ## No lane and no request outside LOCKED (R107) -/

/-- No request, and no lane of the own address in the table or in the slot copy. -/
def LaneManager.Bare (own : Addr) (l : LaneManager) : Prop :=
  l.request = .none ∧ l.table.laneOf own = none ∧ l.slotCopy.laneOf own = none

theorem LaneManager.reset_bare (own : Addr) : LaneManager.reset.Bare own :=
  ⟨rfl, LaneTable.allFree_laneOf own, LaneTable.allFree_laneOf own⟩

section
variable {s : State}

/-- An address that is ABSENT announces nothing, so it wins no lane (R110). -/
theorem State.winners_ne_absent {a : Addr} (h : s.census.peers[a].presence = .absent) {l : Lane}
    {w : Announcement} (hw : s.winners l = some w) : w.addr ≠ a := by
  rintro rfl
  obtain ⟨-, hmem, -⟩ := winner_some hw
  obtain ⟨b, hb⟩ := mem_announcements.mp hmem
  obtain ⟨rfl, -, hann, -⟩ := announcementOf_some hb
  have habsent : s.delivery.peers[w.addr].presence = .absent := h
  rw [habsent] at hann
  cases hann

/-- Stage 1 gives an ABSENT address no lane (R112). -/
theorem State.repairTable_absent {a : Addr} (h : s.census.peers[a].presence = .absent)
    {before t : LaneTable} (ht : t.laneOf a = none) (k : Lane) :
    (repairTable s.winners before t)[k].owner ≠ some a := by
  intro hk
  rcases repairTable_owner hk with ⟨l, w, hw, hwa⟩ | ⟨j, hj⟩
  · exact State.winners_ne_absent h hw hwa
  · exact LaneTable.laneOf_none.mp ht j hj

theorem State.follow_bare {a : Addr} (h : s.census.peers[a].presence = .absent) (hs : s.lanes.Bare a) :
    s.follow.1.lanes.Bare a := by
  obtain ⟨hreq, htable, hcopy⟩ := hs
  refine ⟨hreq, LaneTable.laneOf_none.mpr fun k hk => ?_, hcopy⟩
  rw [State.follow_table] at hk
  exact State.repairTable_absent h htable k (followTable_owner hk)

theorem LaneTable.without_laneOf_none {t : LaneTable} {a : Addr} (h : t.laneOf a = none) (b : Addr) :
    (t.without b).laneOf a = none :=
  LaneTable.laneOf_none.mpr fun k hk => LaneTable.laneOf_none.mp h k (LaneTable.without_owner hk).1

theorem State.election_bare (h : s.census.peers[s.own].presence = .absent) (hs : s.lanes.Bare s.own) :
    s.election.1.lanes.Bare s.own := by
  obtain ⟨hreq, htable, hcopy⟩ := hs
  refine ⟨?_, LaneTable.laneOf_none.mpr fun k hk => ?_, ?_⟩
  · rcases s.election_request with he | he
    · exact he
    · exact he.trans hreq
  · rw [State.election_table] at hk
    rcases elect_owner hk with hk | hk
    · refine State.repairTable_absent h ?_ k hk
      split
      · exact LaneTable.without_laneOf _ _
      · exact htable
    · have habsent : s.delivery.peers[s.own].presence = .absent := h
      rw [habsent] at hk
      cases hk
  · rw [State.election_slotCopy]
    split
    · exact LaneTable.without_laneOf _ _
    · exact hcopy

theorem State.conflictEntry_bare (s : State) : s.conflictEntry.1.lanes.Bare s.own := by
  obtain ⟨hreq, htable, hcopy⟩ := s.conflictEntry_lanes
  refine ⟨hreq, ?_, ?_⟩
  · rw [htable]
    exact LaneTable.without_laneOf _ _
  · rw [hcopy]
    exact LaneTable.without_laneOf _ _

/-- Outside LOCKED the lane manager's census close leaves no lane and no request (R106, R107). -/
theorem State.lanesAtCensus_bare {c : Bool} (h : s.census.peers[s.own].presence = .absent)
    (hs : s.lanes.Bare s.own ∨ (c = true ∧ s.beat.sync = .conflict)) :
    (s.lanesAtCensus c).1.lanes.Bare s.own := by
  have hconflict : s.conflictEntry.1.follow.1.lanes.Bare s.own := by
    refine State.follow_bare ?_ s.conflictEntry_bare
    rw [State.conflictEntry_census]
    exact h
  have hbare : s.beat.sync ≠ .conflict → s.lanes.Bare s.own := fun hne =>
    hs.resolve_right fun hc => hne hc.2
  have hkept : c = false → s.lanes.Bare s.own := fun hc => hs.resolve_right fun h => by
    rw [hc] at h
    exact nomatch h.1
  unfold State.lanesAtCensus
  split
  · next hsync => exact State.election_bare h (hbare (by rw [hsync]; decide))
  · next hsync => exact State.election_bare h (hbare (by rw [hsync]; decide))
  · split
    · exact hconflict
    · next hc => exact State.follow_bare h (hkept (by simpa using hc))
  · split
    · exact hconflict
    · next hc => exact State.follow_bare h (hkept (by simpa using hc))
  · split
    · exact hconflict
    · next hc => exact State.follow_bare h (hkept (by simpa using hc))
  · next hsync => exact hbare (by rw [hsync]; decide)
  · next hsync => exact hbare (by rw [hsync]; decide)

theorem State.lanesClosed_noLane (hflags : s.FlagsSound) (hs : s.NoLaneOutsideLocked) :
    s.lanesClosed.1.NoLaneOutsideLocked := by
  intro hsync
  rw [State.lanesClosed_beat] at hsync
  have hown : s.lanesClosed.1.own = s.beatClosed.1.own := State.lanesAtCensus_own _ _
  rw [hown]
  refine State.lanesAtCensus_bare ?_ ?_
  · have hentry : s.beatClosed.1.census.peers[s.beatClosed.1.own] = ownEntry s.beatClosed.1.beat.sync :=
      (State.beatClosed_flags hflags).2
    rw [hentry, ownEntry, if_neg hsync]
    rfl
  · by_cases hlocked : s.beat.sync = .locked
    · have hb : s.beatClosed.1.beat.sync = if s.slotConflict then .conflict else .locked :=
        State.beatAtCensus_locked (s := s.closeCensus) hlocked
      cases hc : s.slotConflict with
      | true => exact .inr ⟨rfl, by rw [hb, hc]; rfl⟩
      | false =>
        rw [hb, hc] at hsync
        exact absurd rfl hsync
    · refine .inl ?_
      rw [State.beatClosed, State.beatAtCensus_lanes, State.beatAtCensus_own]
      exact hs hlocked

theorem State.censusClose_noLane (hflags : s.FlagsSound) (hs : s.NoLaneOutsideLocked) :
    s.censusClose.NoLaneOutsideLocked := by
  refine State.censusClose_induction (fun _ _ h => h) (fun t _ => ?_) (State.lanesClosed_noLane hflags hs)
  rw [State.rejoin_lanes]
  exact LaneManager.reset_bare _

theorem State.takeLaneOutcome_noLane (hs : s.NoLaneOutsideLocked) (o : Readback) :
    (s.takeLaneOutcome o).NoLaneOutsideLocked := by
  intro hsync
  have hbeat : (s.takeLaneOutcome o).beat.sync = s.beat.sync := by rw [State.takeLaneOutcome_frame]
  obtain ⟨hreq, htable, hcopy⟩ := hs (hbeat ▸ hsync)
  unfold State.takeLaneOutcome
  rw [if_neg (by rw [htable]; decide)]
  exact ⟨hreq, htable, hcopy⟩

theorem State.LeadsTo.noLane {u v : State} {cs : CycleStart} {rejoins : Bool} (h : u.LeadsTo v cs rejoins)
    (hu : u.NoLaneOutsideLocked) : (v.cycleStart cs rejoins).NoLaneOutsideLocked := by
  intro hsync
  rw [State.cycleStart_sync] at hsync
  have hown : (v.cycleStart cs rejoins).own = u.own := by
    rw [State.cycleStart_own, State.own, State.afterCycleStart_straps, h.frame]
    rfl
  have hlanes : v.lanes = u.lanes := (congrArg State.lanes h.frame).trans rfl
  rw [hown, State.cycleStart_lanes, State.afterCycleStart]
  cases rejoins with
  | true =>
    rw [if_pos rfl, State.summaryTick_lanes, State.rejoin_lanes]
    exact LaneManager.reset_bare _
  | false =>
    rw [if_neg (by decide), State.summaryTick_lanes, State.beginCycle_lanes]
    rw [if_neg (by decide)] at hsync
    have hu' : u.beat.sync ≠ .locked := by
      intro hlocked
      rcases h.moves with he | ⟨he, -⟩ | ⟨he, -⟩ | ⟨he, -⟩
      · exact hsync (he.trans hlocked)
      · rw [hlocked] at he
        cases he
      · rw [hlocked] at he
        cases he
      · exact hsync he
    obtain ⟨hreq, htable, hcopy⟩ := hu hu'
    rw [hlanes]
    exact ⟨hreq, htable, htable⟩

theorem State.ownReportSlot_noLane (hs : s.NoLaneOutsideLocked) : s.ownReportSlot.NoLaneOutsideLocked := by
  rw [State.ownReportSlot_frame]
  intro hsync
  obtain ⟨-, htable, hcopy⟩ := hs hsync
  refine ⟨?_, htable, hcopy⟩
  show s.requestNow = .none
  unfold State.requestNow
  exact if_pos hsync

theorem State.publish_noLane (hs : s.NoLaneOutsideLocked) (p : Processing) :
    (s.publish p).NoLaneOutsideLocked := by
  unfold State.publish State.bindDetectorRead
  dsimp only
  split <;> exact hs

end

theorem State.Acts.keeps_noLane {u t : State} (h : u.Acts t) (hflags : u.FlagsSound)
    (hu : u.NoLaneOutsideLocked) : t.NoLaneOutsideLocked := by
  cases h with
  | cycleStarted h => exact h.noLane hu
  | beatRequested kind c p h =>
    intro hsync
    rw [State.requestBeat_sync] at hsync
    rw [State.requestBeat_frame]
    exact hu hsync
  | beatDeferred kind =>
    intro hsync
    rw [State.startBeat_sync] at hsync
    rw [State.startBeat_frame]
    exact hu hsync
  | published p h hread => exact State.publish_noLane hu p
  | ownReport => exact State.ownReportSlot_noLane hu
  | reportReceived slot rx => rw [State.receiveReport_frame]; exact hu
  | stoppedLaneEnded rest o => refine State.takeLaneOutcome_noLane ?_ o; exact hu
  | laneEnded o => refine State.takeLaneOutcome_noLane ?_ o; exact hu
  | laneReceived lane rx => rw [State.handSet_frame]; exact hu
  | censusClosed h => exact State.censusClose_noLane hflags hu
  | nothing | sampleTaken | pdmSampled | waitOpened | takerFixed | candidateFound | candidateDropped
  | beatRefounded | beatBarred | beatEnded | reportEnded | laneStarted | mixFormed | frameStarted
  | recordStarted | recordEnded => exact hu

/-! ## Membership -/

theorem State.reset_membership (s : State) : s.resetOf.Membership where
  held := s.resetOf_held
  founding := .of_idle rfl
  candidate := rfl
  ownEntry := .of rfl rfl rfl (replicate_get _ _)
  noLane _ := LaneManager.reset_bare _

theorem State.release_membership {s : State} (straps : StrapPins) (keys : KeyPins) (hr : s.inReset = true)
    (hs : s.Membership) : (s.release straps keys).Membership := by
  rw [hs.held hr]
  exact {
    held := State.heldInReset_of_running rfl
    founding := .of_idle rfl
    candidate := rfl
    ownEntry := .of rfl rfl rfl (replicate_get _ _)
    noLane := fun _ => LaneManager.reset_bare _ }

/-- Settles O55: every effect that moves the sync state moves what belongs to it. -/
theorem everyStepKeepsMembership : Obligations.EveryStepKeepsMembership := by
  intro s t hs h
  refine step_keeps (P := State.Membership) ?_ State.reset_membership
    (fun s straps keys => State.release_membership straps keys) ?_ ?_ hs h
  · exact fun s q hs => ⟨hs.held.withPending q, hs.founding, hs.candidate, hs.ownEntry, hs.noLane⟩
  · exact fun n s hr hs => ⟨State.heldInReset_of_running hr, hs.founding.elapse n, hs.candidate, hs.ownEntry,
      hs.noLane⟩
  · intro u t hr hu ha
    obtain ⟨hcand, hentry⟩ := ha.keeps_flags ⟨hu.candidate, hu.ownEntry⟩
    exact ⟨State.heldInReset_of_running (ha.inReset.trans hr), ha.keeps_founding hu.founding, hcand, hentry,
      ha.keeps_noLane ⟨hu.candidate, hu.ownEntry⟩ hu.noLane⟩

end Sys2Proof.Machine

/-! SUPPORT. What the line driver can do, and the state under reset. -/

namespace Sys2Proof.Machine

/-! ## A frame goes on, stops, or is released (R35, R45, R46, R86) -/

/-- The driver is released, or goes on with the frame it was sending, perhaps stopped. -/
def Continues (x y : Option LineTx) : Prop :=
  y = none ∨ ∃ a b : LineTx, x = some a ∧ y = some b ∧ b.kind = a.kind ∧ b.bits <+: a.bits ∧ a.sent ≤ b.sent

theorem Continues.refl (x : Option LineTx) : Continues x x := by
  cases x with
  | none => exact .inl rfl
  | some a => exact .inr ⟨a, a, rfl, rfl, rfl, List.prefix_refl _, Nat.le_refl _⟩

theorem Continues.trans {x y z : Option LineTx} (h : Continues x y) (h' : Continues y z) : Continues x z := by
  rcases h' with rfl | ⟨b, c, rfl, rfl, hkind', hbits', hsent'⟩
  · exact .inl rfl
  · rcases h with h | ⟨a, b', rfl, hb, hkind, hbits, hsent⟩
    · cases h
    · cases hb
      exact .inr ⟨a, c, rfl, rfl, hkind'.trans hkind, hbits'.trans hbits, hsent.trans hsent'⟩

theorem Continues.of_eq {x y : Option LineTx} (h : y = x) : Continues x y := h ▸ .refl x

theorem Continues.map {x : Option LineTx} {f : LineTx → LineTx}
    (hf : ∀ a, (f a).kind = a.kind ∧ (f a).bits <+: a.bits ∧ a.sent ≤ (f a).sent) :
    Continues x (x.map f) := by
  cases x with
  | none => exact .inl rfl
  | some a => exact .inr ⟨a, f a, rfl, rfl, hf a⟩

theorem Continues.stop (x : Option LineTx) : Continues x (x.map LineTx.stop) :=
  .map fun _ => ⟨rfl, List.take_prefix _ _, Nat.le_refl _⟩

theorem Line.elapse_continues (n : Nat) (l : Line) : Continues l.tx (l.elapse n).tx :=
  .map fun _ => ⟨rfl, List.prefix_refl _, Nat.le_add_right _ _⟩

theorem Line.stopLane_continues (l : Line) : Continues l.tx l.stopLane.tx := by
  refine .map fun a => ?_
  split
  · exact ⟨rfl, List.take_prefix _ _, Nat.le_refl _⟩
  · exact ⟨rfl, List.prefix_refl _, Nat.le_refl _⟩

theorem Line.release_continues (kind : FrameKind) (l : Line) : Continues l.tx (l.release kind).tx := by
  unfold Line.release
  dsimp only
  cases l.tx with
  | none => exact .inl rfl
  | some a =>
    rw [Option.filter_some]
    split
    · exact .refl _
    · exact .inl rfl

/-! ## The effects -/

theorem State.cutOwnLane_continues (g : GateReason) (s : State) :
    Continues s.line.tx (s.cutOwnLane g).1.line.tx := by
  rcases s.cutOwnLane_line_tx g with h | h <;> rw [h]
  · exact .refl _
  · exact s.line.stopLane_continues

theorem State.rejoin_continues (r : SyncReason) (s : State) : Continues s.line.tx (s.rejoin r).1.line.tx := by
  rw [State.rejoin_line]
  exact .stop _

theorem State.beginCycle_continues (cs : CycleStart) (rejoins : Bool) (s : State) :
    Continues s.line.tx (s.beginCycle cs rejoins).1.line.tx := by
  rw [State.beginCycle_line, Line.openSpans_tx, State.leaveCycle]
  split
  · rw [State.realign_line_tx]
    exact .stop _
  · exact .refl _

theorem State.cycleStart_continues (cs : CycleStart) (rejoins : Bool) (s : State) :
    Continues s.line.tx (s.cycleStart cs rejoins).line.tx := by
  rw [State.cycleStart_line, State.afterCycleStart, State.summaryTick_line]
  refine (s.beginCycle_continues cs rejoins).trans ?_
  split
  · exact State.rejoin_continues .lost _
  · exact .refl _

theorem State.repaired_continues (s : State) : Continues s.line.tx s.repaired.1.line.tx := by
  unfold State.repaired
  split
  · exact s.cutOwnLane_continues .conflict
  · exact .refl _

theorem State.lanesAtCensus_continues (c : Bool) (s : State) :
    Continues s.line.tx (s.lanesAtCensus c).1.line.tx := by
  have helect : Continues s.line.tx s.election.1.line.tx := by
    rw [State.election_line]
    exact s.repaired_continues
  unfold State.lanesAtCensus
  split
  · exact helect
  · exact helect
  all_goals first
    | exact .refl _
    | (split
       · exact s.cutOwnLane_continues .conflict
       · exact .refl _)

theorem State.censusClose_continues (s : State) : Continues s.line.tx s.censusClose.line.tx := by
  have hbeat : s.beatClosed.1.line = s.line := by
    rw [State.beatClosed, State.beatAtCensus_line]
    rfl
  have hlanes : Continues s.line.tx s.lanesClosed.1.line.tx := by
    rw [← hbeat]
    exact s.beatClosed.1.lanesAtCensus_continues s.slotConflict
  rw [State.censusClose_eq, State.raise_line]
  refine hlanes.trans ?_
  rcases s.lanesClosed.1.rejoinIfDiverged_cases with ⟨-, hr⟩ | ⟨-, hr⟩ <;> rw [hr]
  · exact State.rejoin_continues .diverged _
  · exact .refl _

theorem State.takeLaneOutcome_continues (o : Readback) (s : State) :
    Continues s.line.tx (s.takeLaneOutcome o).line.tx := by
  unfold State.takeLaneOutcome
  split
  · unfold State.countLaneOutcome
    cases o with
    | clean => exact .refl _
    | collision =>
      dsimp only
      rw [State.raise_line]
      split
      · exact .refl _
      · exact s.cutOwnLane_continues .conflict
  · exact .refl _

/-- What an effect does to the driver: the frame goes on, or an admitted one begins. -/
def State.Drives (s t : State) : Prop :=
  Continues s.line.tx t.line.tx ∨ ∃ y : LineTx, t.line.tx = some y ∧ s.MayDrive y

theorem State.startBeat_drives (kind : BeatKind) (s : State) : s.Drives (s.startBeat kind) := by
  unfold State.startBeat
  split
  · next h =>
    refine .inr ⟨_, rfl, rfl, ?_⟩
    cases kind with
    | founding => exact .inl ⟨of_decide_eq_true h, rfl⟩
    | holder => exact .inr ⟨of_decide_eq_true h, rfl⟩
    | taker => exact .inr ⟨of_decide_eq_true h, rfl⟩
  · exact .inl (.refl _)

theorem State.requestBeat_drives (kind : BeatKind) (s : State) : s.Drives (s.requestBeat kind) := by
  unfold State.requestBeat
  split
  · exact .inl (.refl _)
  · exact s.startBeat_drives kind

theorem State.ownReportSlot_drives (s : State) : s.Drives s.ownReportSlot := by
  unfold State.ownReportSlot
  split
  · next h =>
    refine .inr ⟨_, rfl, rfl, ?_, s.evaluateRequest.1.ownReport, rfl, rfl⟩
    have hsync : s.beat.sync.reports = true := h
    cases hs : s.beat.sync <;> rw [hs] at hsync <;> first | exact .inl rfl | exact .inr rfl | cases hsync
  · exact .inl (.refl _)

theorem State.startLane_drives {s : State} {lane : Lane} (h : s.sendsLane lane = true) :
    s.Drives (s.startLane lane) := by
  unfold State.sendsLane at h
  simp only [Bool.and_eq_true, decide_eq_true_iff, beq_iff_eq] at h
  obtain ⟨⟨hlane, hsync⟩, howner⟩ := h
  exact .inr ⟨_, rfl, rfl, hsync, lane, s.ownLaneFrame lane, hlane, howner, rfl, rfl, rfl⟩

theorem State.LeadsTo.continues {u v : State} {cs : CycleStart} {rejoins : Bool} (h : u.LeadsTo v cs rejoins) :
    Continues u.line.tx v.line.tx := by
  rcases h.tx with he | he <;> rw [he]
  · exact .refl _
  · exact u.line.release_continues .beat

theorem State.Acts.drives {u t : State} (h : u.Acts t) : u.Drives t := by
  cases h with
  | cycleStarted h => exact .inl (h.continues.trans (State.cycleStart_continues _ _ _))
  | beatRequested kind c p h => exact State.requestBeat_drives kind _
  | beatDeferred kind => exact u.startBeat_drives kind
  | beatRefounded => exact .inl (u.line.release_continues .beat)
  | beatBarred => exact .inl (u.line.release_continues .beat)
  | beatEnded => exact .inl (u.line.release_continues .beat)
  | published p h hread => rw [State.publish_frame]; exact .inl (.refl _)
  | ownReport => exact u.ownReportSlot_drives
  | reportEnded o => exact .inl (u.line.release_continues .report)
  | reportReceived slot rx =>
    refine .inl (.of_eq ?_)
    unfold State.receiveReport
    dsimp only
    split
    · rfl
    · split <;> rfl
  | laneStarted lane h => exact State.startLane_drives h
  | stoppedLaneEnded rest o => exact .inl (State.takeLaneOutcome_continues o _)
  | laneEnded o => exact .inl ((u.line.release_continues .lane).trans (State.takeLaneOutcome_continues o u.endLane))
  | laneReceived lane rx => rw [State.handSet_frame]; exact .inl (.refl _)
  | censusClosed h => exact .inl u.censusClose_continues
  | nothing | sampleTaken | pdmSampled | waitOpened | takerFixed | candidateFound | candidateDropped
  | mixFormed | frameStarted | recordStarted | recordEnded => exact .inl (.refl _)

/-- Settles O16: an effect that drives a frame begins one that R35 admits, and every other one keeps, stops or
releases the frame that was being sent. -/
theorem driverBeginsOnlyAdmittedFrames : Obligations.DriverBeginsOnlyAdmittedFrames := by
  intro c s t h
  have hdrives : s.Drives t := by
    rcases exec_cases h with rfl | ⟨-, rfl | ⟨straps, keys, rfl⟩⟩ | ⟨-, ha | ⟨n, ha⟩⟩
    · exact .inl (.inl rfl)
    · exact .inl (.refl _)
    · exact .inl (.refl _)
    · exact ha.drives
    · exact ha.drives.imp (s.line.elapse_continues n).trans id
  rcases hdrives with (h | h) | h
  · exact .inl h
  · exact .inr (.inl h)
  · exact .inr (.inr h)

/-! ## The state under reset -/

/-- Settles O54: the reset values meet every invariant. -/
theorem resetStateIsSound : Obligations.ResetStateIsSound where
  membership := State.reset_membership State.reset
  tables := State.tablesSound_iff.mpr ⟨State.resetOf_held State.reset, LaneManager.reset_tablesFit _⟩
  status := StatusPort.reset_sound
  detector := Detector.reset_steady.1
  published := Detector.reset_steady.2
  counters := State.countersInRange_iff.mpr State.reset_ranges
  reads := ⟨List.Pairwise.nil, List.Pairwise.nil, nofun, nofun⟩

end Sys2Proof.Machine

/-! SUPPORT. Steps, pins, reset and its release. -/

namespace Sys2Proof.Machine

/-! ## Steps -/

theorem State.rejoinIfDiverged_pending (s : State) : s.rejoinIfDiverged.1.pending = s.pending := by
  rcases s.rejoinIfDiverged_cases with ⟨-, h⟩ | ⟨-, h⟩ <;> simp [h]

/-- No effect takes a command from the queue. -/
theorem State.Acts.pending {u t : State} (h : u.Acts t) : t.pending = u.pending := by
  cases h with
  | @cycleStarted v cs rejoins h =>
    have hbegin : (v.afterCycleStart cs rejoins).pending = v.pending := by
      cases rejoins <;> simp [State.afterCycleStart]
    rw [State.cycleStart_pending, hbegin, h.frame]
  | beatRequested kind c p h => rw [State.requestBeat_frame]
  | beatDeferred kind => rw [State.startBeat_frame]
  | published p h hread => rw [State.publish_frame]
  | ownReport => rw [State.ownReportSlot_frame]
  | reportReceived slot rx => rw [State.receiveReport_frame]
  | stoppedLaneEnded rest o => rw [State.takeLaneOutcome_frame]
  | laneEnded o => rw [State.takeLaneOutcome_frame]; rfl
  | laneReceived lane rx => rw [State.handSet_frame]; rfl
  | censusClosed h =>
    rw [State.censusClose_eq, State.raise_pending, State.rejoinIfDiverged_pending, State.lanesClosed,
      State.lanesAtCensus_pending, State.beatClosed, State.beatAtCensus_pending]
    rfl
  | nothing | sampleTaken | pdmSampled | waitOpened | takerFixed | candidateFound | candidateDropped
  | beatRefounded | beatBarred | beatEnded | reportEnded | laneStarted | mixFormed | frameStarted
  | recordStarted | recordEnded => rfl

theorem exec_completes (c : Instr) (s : State) : ∃ t, exec c s = .next t ∧ t.pending = s.pending := by
  by_cases hc : c = .hardwareReset
  · subst hc
    exact ⟨_, rfl, rfl⟩
  · cases hr : s.inReset with
    | true =>
      rcases exec_inReset hr c hc with he | ⟨straps, keys, he⟩
      · exact ⟨_, he, rfl⟩
      · exact ⟨_, he, rfl⟩
    | false =>
      obtain ⟨t, he, ha | ⟨n, ha⟩⟩ := exec_acts hr c hc
      · exact ⟨t, he, ha.pending⟩
      · exact ⟨t, he, ha.pending⟩

/-- Settles O1: no command stops the node, and none looks at the queue. -/
theorem stepRunsFrontCommand : Obligations.StepRunsFrontCommand :=
  fun c s => ⟨fun _ => rfl, exec_completes c s⟩

/-- Settles O2: a bit time is the elapse functions at 1. -/
theorem emptyQueueLetsOneBitTimePass : Obligations.EmptyQueueLetsOneBitTimePass := by
  intro s hq
  have hidle : step s = .next s.idle := by
    unfold step
    rw [hq]
  refine ⟨fun hr => ?_, fun hr => ?_, fun m n => s.elapse_elapse m n⟩
  · rw [hidle, State.idle, if_pos hr]
  · rw [hidle, State.idle, if_neg (by simp [hr])]
    have hbeat : s.beat.elapse 1 = { s.beat with
        timer := s.beat.timer + 1
        coldStart := s.beat.coldStart.map fun left => left - 1
        request := match s.beat.request with
          | .idle => .idle
          | .waiting kind => .waiting kind
          | .sending kind cycle age => .sending kind cycle (age + 1) } := by
      unfold Beat.elapse
      cases s.beat.request <;> rfl
    unfold State.elapse
    rw [hbeat]
    rfl

/-! ## Pins (R1, R33, R105, R145, R156 to R159) -/

/-- Settles O3: each pin is the condition that its rule names. -/
theorem indicatorsAndPinsFollowTheState : Obligations.IndicatorsAndPinsFollowTheState := by
  intro s
  refine ⟨fun hr => ?_, fun hr => ?_, fun htx => ?_, fun x htx => ?_⟩
  · refine ⟨?_, ?_, ?_, ?_, ?_, ?_, ?_, ?_, ?_⟩
    · simp [State.linkLit, hr]
    · simp [State.gateLit, hr]
    · simp [State.waitLit, hr]
    · simp [State.muteLit, hr]
    · simp [State.faultLit, hr]
    · simp [State.pdmClkRuns, hr]
    · simp [State.oclkHigh, hr]
    · unfold State.owsHigh
      cases s.mix.frame <;> simp [hr]
    · unfold State.odatHigh
      cases s.mix.frame <;> simp [hr]
  · refine ⟨?_, ?_, ?_, ?_, ?_, ?_, ?_⟩
    · rw [State.linkLit, hr]
      cases hs : s.beat.sync <;> simp [SyncState.blinks]
    · simp only [State.gateLit, hr, LaneTable.laneOf_isSome, Bool.not_false, Bool.true_and]
    · rw [State.waitLit, hr]
      cases s.lanes.request <;> simp
    · simp only [State.muteLit, KeyUnit.muted, KeyUnit.cough, State.role, hr, Bool.not_false, Bool.true_and,
        Bool.and_eq_true, Bool.or_eq_true, decide_eq_true_iff]
      exact and_congr decide_eq_true_iff Iff.rfl
    · simp [State.faultLit, hr, or_assoc]
    · simp [State.pdmClkRuns, hr]
    · simp [State.oclkHigh, hr]
  · simp [State.lineDominant, htx]
  · simp [State.lineDominant, htx]

/-! ## Reset and its release -/

/-- Settles O4: hardware reset sets the reset values, whatever the state. -/
theorem hardwareResetSetsResetValues : Obligations.HardwareResetSetsResetValues := by
  intro s
  refine ⟨_, rfl, rfl, rfl, ?_⟩
  refine ⟨fun i => ?_, rfl, rfl, rfl, rfl, rfl, rfl, rfl, rfl, rfl, rfl, rfl, rfl, rfl, rfl, rfl, rfl,
    fun a => replicate_get _ a, fun l => replicate_get _ l, rfl, rfl, rfl, rfl, rfl, rfl, rfl, rfl, rfl, rfl, rfl,
    rfl, rfl, rfl, rfl, rfl, fun a => ⟨replicate_get _ a, replicate_get _ a⟩, rfl, rfl, rfl, rfl,
    fun l => ⟨LaneTable.allFree_get l, LaneTable.allFree_get l⟩, rfl, rfl, rfl, rfl, LaneManager.reset_digest,
    rfl, rfl, rfl, rfl, rfl, rfl, fun l => ?_, ?_⟩
  · have hslot : State.reset.capture.slots[i] = Slot.reset := replicate_get _ i
    show State.reset.capture.slots[i].validity = .cut ∧ State.reset.capture.slots[i].clip = false ∧
      State.reset.capture.slots[i].read = silence
    rw [hslot]
    exact ⟨rfl, rfl, rfl⟩
  · have hlane : State.reset.audio.lanes[l] = LaneRx.reset := replicate_get _ l
    show State.reset.audio.lanes[l].state = .muted ∧ State.reset.audio.lanes[l].faded = true ∧
      State.reset.audio.lanes[l].lastGood = silence ∧ State.reset.audio.lanes[l].received = none ∧
      State.reset.audio.lanes[l].contribution = none
    rw [hlane]
    exact ⟨rfl, rfl, rfl, rfl, rfl⟩
  · exact ⟨rfl, rfl, rfl, rfl, rfl, rfl, rfl, rfl, rfl, rfl, rfl, rfl, rfl, rfl, rfl, rfl, rfl, rfl, rfl, rfl⟩

theorem Role.ofCode_toNat (r : BitVec 2) :
    Role.ofCode r.toNat = (#v[Role.auto, .keyed, .chair, .listen] : Vector Role 4)[r.toFin] := by
  revert r
  decide

/-- The fingerprint as a number: revision 2, M − 1, POLICY and LASTON (R151). -/
theorem sampleStraps_fingerprint (p : StrapPins) : (sampleStraps p).makeFingerprint.toNat =
    32 + 4 * p.lanes.toNat + 2 * p.policy.toNat + p.lastOn.toNat := by
  have hbits : ∀ (lanes : BitVec 2) (policy last : Bool),
      (2#4 ++ BitVec.ofNat 2 lanes.toFin.val ++
        BitVec.ofBool (decide ((if policy then Policy.loudest else .firstOn) = .loudest)) ++
        BitVec.ofBool last).toNat = 32 + 4 * lanes.toNat + 2 * policy.toNat + last.toNat := by decide
  exact hbits p.lanes p.policy p.lastOn

/-- The first sample of a released key counts, and accepts nothing (R153). -/
theorem Key.sample_released (pressed : Bool) :
    Key.released.sample pressed = { pressed := false, count := pressed.toNat } := by
  cases pressed <;> rfl

/-- The keys at the release of the reset. -/
theorem KeyUnit.release_reset (p : StrapPins) (k : KeyPins) : KeyUnit.reset.release p k =
    { KeyUnit.reset with
      straps := sampleStraps p, fingerprint := (sampleStraps p).makeFingerprint
      keyA := { pressed := false, count := (!k.keyA).toNat }
      keyB := { pressed := false, count := (!k.keyB).toNat } } := by
  have hA : Key.released.sample (keyAPressed k) = { pressed := false, count := (!k.keyA).toNat } :=
    Key.sample_released _
  have hB : Key.released.sample (keyBPressed k) = { pressed := false, count := (!k.keyB).toNat } :=
    Key.sample_released _
  unfold KeyUnit.release KeyUnit.sampleKeys
  simp only [KeyUnit.reset, hA, hB]
  rfl

/-- Settles O5: the release adds straps, key samples, the cold-start timer and STARTED to the reset values. -/
theorem resetReleaseStartsTheNode : Obligations.ResetReleaseStartsTheNode := by
  intro p k s hr hheld
  refine ⟨_, congrArg Host.Outcome.next (if_pos hr), ?_⟩
  rw [hheld hr]
  have hkeys := KeyUnit.release_reset p k
  have hrelease : ∀ u : State, u.keys = KeyUnit.reset → u.release p k = (({ u with
      inReset := false
      keys := { KeyUnit.reset with
        straps := sampleStraps p, fingerprint := (sampleStraps p).makeFingerprint
        keyA := { pressed := false, count := (!k.keyA).toNat }
        keyB := { pressed := false, count := (!k.keyB).toNat } }
      beat := { u.beat with coldStart := some (coldStartDelay (sampleStraps p).addr.val) } } : State).raise
        [.started (sampleStraps p) (sampleStraps p).makeFingerprint]) := fun u hu => by
    unfold State.release
    rw [hu, hkeys]
  rw [hrelease _ rfl]
  exact ⟨rfl, rfl, Role.ofCode_toNat p.role, rfl, rfl, rfl, rfl, rfl, rfl, sampleStraps_fingerprint p, rfl, rfl,
    rfl, rfl, rfl⟩

end Sys2Proof.Machine

/-! SUPPORT. The capture unit: rounding and saturation, one sample, and the completion of a frame. -/

namespace Sys2Proof.Machine

/-! ## Rounding and saturation (R4, R5, R141) -/

theorem roundDiv_isRounded (n : Int) {d : Nat} (hd : 0 < d) : IsRounded n d (roundDiv n d) := by
  have hmod := Nat.div_add_mod (2 * n.natAbs + d) (2 * d)
  have hlt := Nat.mod_lt (2 * n.natAbs + d) (show 0 < 2 * d by omega)
  unfold IsRounded roundDiv
  generalize (2 * n.natAbs + d) / (2 * d) = q at hmod ⊢
  have hprod : 2 * d * q = 2 * (q * d) := by ring
  rw [hprod] at hmod
  split
  · rw [← Int.natCast_mul]
    omega
  · rw [Int.neg_mul, ← Int.natCast_mul]
    omega

theorem saturate_isSaturated (x : Int) : IsSaturated x (saturate x) := by
  unfold IsSaturated saturate
  refine ⟨fun h => ?_, fun h => ?_, fun hlo hhi => ?_⟩
  · rw [if_pos h]
    decide
  · rw [if_neg (by omega), if_pos h]
    decide
  · rw [if_neg (by omega), if_neg (by omega), BitVec.toInt_ofInt]
    exact Int.bmod_eq_of_le (by omega) (by omega)

theorem saturates_iff {x : Int} : saturates x = true ↔ 32767 < x ∨ x < -32768 := by
  simp [saturates]

/-! ## One sample (R1 to R5) -/

theorem put_get_castSucc {α : Type} (v : Vector α 64) (k : Fin 63) (h : 63 ≤ 64) (a : α) :
    (put v (k.castLE h) a)[k.castSucc] = a :=
  put_get_self v k.castSucc a

/-- Settles O6: a PDM bit and an output instant, each with what it leaves alone. -/
theorem samplesReachTheFillingSlot : Obligations.SamplesReachTheFillingSlot := by
  refine ⟨Config.decimationFilter.passes, fun level s => ⟨fun h => ?_, fun hr hrole => ?_⟩,
    fun k s hr => ⟨fun hrole => ?_, fun hrole => ?_⟩⟩
  · have hclk : s.pdmClkRuns = false := by
      unfold State.pdmClkRuns
      rcases h with h | h <;> simp [h]
    exact congrArg Host.Outcome.next (if_neg (by simp [hclk]))
  · have hclk : s.pdmClkRuns = true := by simp [State.pdmClkRuns, hr, hrole]
    refine ⟨_, congrArg Host.Outcome.next (if_pos hclk), rfl, rfl, ?_, rfl⟩
    show (s.capture.transition || (level != s.capture.lastPdm)) = true ↔ _
    simp
  · refine congrArg Host.Outcome.next ?_
    rw [if_neg (by simp [hr])]
    show (if s.role = .listen then s.elapseTo (instantAt k.val) else _) = _
    rw [if_pos hrole, instantAt, Nat.mul_comm]
  · have hexec : exec (.outputInstant k) s = .next
        { s.elapseTo (192 * (k.val + 1)) with
          capture := s.capture.takeSample s.keys.straps.gain (k.castLE (by decide))
          arbiter := (s.elapseTo (192 * (k.val + 1))).arbiter.raiseWrite } := by
      refine congrArg Host.Outcome.next ?_
      rw [if_neg (by simp [hr]), Nat.mul_comm]
      exact if_neg hrole
    refine ⟨_, _, _, hexec, rfl, rfl, rfl, rfl, rfl, roundDiv_isRounded _ (by decide),
      roundDiv_isRounded _ (by decide), rfl, fun i hi => ?_, ?_, fun j hj => ?_, ?_, ?_⟩
    · exact put_get_ne _ _ (fun h => hi h.symm)
    · show (put s.capture.slots s.capture.fill _)[s.capture.fill].validity = _
      rw [put_get_self]
    · show (put s.capture.slots s.capture.fill _)[s.capture.fill].samples[j] = _
      rw [put_get_self]
      exact put_get_ne _ _ (fun h => hj (congrArg Fin.val h).symm)
    · show IsSaturated _ ((put s.capture.slots s.capture.fill _)[s.capture.fill].samples[k.castSucc])
      rw [put_get_self]
      dsimp only
      rw [put_get_castSucc]
      exact saturate_isSaturated _
    · show (put s.capture.slots s.capture.fill _)[s.capture.fill].clip = true ↔ _
      rw [put_get_self, Bool.or_eq_true, saturates_iff]
      exact Iff.rfl

/-! ## Frame completion (R7 to R9, R12, R13) -/

/-- The chain produces sample 63 at a completion, but for a listener (R7, R13). -/
def Capture.sampled (straps : Straps) (c : Capture) : Capture :=
  if straps.role = .listen then c else c.takeSample straps.gain 63

/-- The verdict on the filling frame. -/
def Capture.verdictOf (straps : Straps) (displacement : Option Int) (c : Capture) : Validity :=
  verdict straps.role (isJump displacement) c.firstFrame c.transition

/-- The filling slot as the completion fixes it. -/
def Capture.completed (straps : Straps) (displacement : Option Int) (c : Capture) : Slot :=
  (c.sampled straps).slots[c.fill].complete (c.verdictOf straps displacement)

/-- The microphone state moves, but for a listener. -/
def Capture.micMoved (straps : Straps) (displacement : Option Int) (c : Capture) : Capture :=
  if straps.role = .listen then c else c.updateMic (c.verdictOf straps displacement)

section
variable (straps : Straps) (displacement : Option Int) (c : Capture)

theorem Capture.sampled_fill : (c.sampled straps).fill = c.fill := by
  unfold Capture.sampled
  split <;> rfl

theorem Capture.updateMic_frame (v : Validity) : c.updateMic v =
    { c with
      mic := (c.updateMic v).mic, stuckCount := (c.updateMic v).stuckCount
      goodCount := (c.updateMic v).goodCount } := by
  unfold Capture.updateMic
  split
  · split <;> rfl
  · rfl
  · split <;> rfl
  · rfl
  · rfl

/-- The microphone state and its counters depend on those before and on the verdict only. -/
theorem Capture.updateMic_of_chain (v : Validity) (slots : Vector Slot 4) (history : List PdmEvent)
    (dcIn : Sample) (dcOut : Int) :
    ({ c with slots := slots, history := history, dcIn := dcIn, dcOut := dcOut } : Capture).updateMic v =
      { c with
        slots := slots, history := history, dcIn := dcIn, dcOut := dcOut
        mic := (c.updateMic v).mic, stuckCount := (c.updateMic v).stuckCount
        goodCount := (c.updateMic v).goodCount } := by
  unfold Capture.updateMic
  dsimp only
  split
  · split <;> rfl
  · rfl
  · split <;> rfl
  · rfl
  · rfl

/-- A completion, field by field (R7, R8, R9, R12, R13). -/
theorem Capture.complete_eq : c.complete straps displacement =
    ({ c with
        history := (c.sampled straps).history, dcIn := (c.sampled straps).dcIn
        dcOut := (c.sampled straps).dcOut
        slots := put (put (c.sampled straps).slots c.fill (c.completed straps displacement)) (c.fill + 1)
          { (put (c.sampled straps).slots c.fill (c.completed straps displacement))[c.fill + 1] with
            validity := .filling, clip := false }
        fill := c.fill + 1, transition := false, firstFrame := false
        mic := (c.micMoved straps displacement).mic
        stuckCount := (c.micMoved straps displacement).stuckCount
        goodCount := (c.micMoved straps displacement).goodCount },
      { validity := c.verdictOf straps displacement, clip := (c.completed straps displacement).clip
        mic := (c.micMoved straps displacement).mic }) := by
  unfold Capture.complete Capture.micMoved Capture.completed Capture.sampled Capture.verdictOf
  by_cases hrole : straps.role = .listen
  · simp only [if_pos hrole]
    rfl
  · simp only [if_neg hrole, Capture.takeSample, Capture.updateMic_of_chain]
    rfl

theorem Capture.sampled_slots_ne {i : Fin 4} (h : i ≠ c.fill) : (c.sampled straps).slots[i] = c.slots[i] := by
  unfold Capture.sampled
  split
  · rfl
  · exact put_get_ne _ _ h.symm

theorem Capture.complete_ofAge (a : Fin 4) : (c.complete straps displacement).1.ofAge a =
    if a = 0 then { (c.complete straps displacement).1.ofAge 0 with validity := .filling, clip := false }
    else if a = 1 then c.completed straps displacement else c.ofAge (a - 1) := by
  rw [Capture.complete_eq]
  unfold Capture.ofAge
  dsimp only
  have hages : ∀ f a : Fin 4, (a = 0 → f + 1 - a = f + 1) ∧ (a = 1 → f + 1 - a = f) ∧
      (a ≠ 0 → f + 1 - a ≠ f + 1) ∧ (a ≠ 1 → f + 1 - a ≠ f) ∧ f + 1 - a = f - (a - 1) := by decide
  obtain ⟨h0, h1, hne0, hne1, hsub⟩ := hages c.fill a
  split
  · next ha =>
    subst ha
    rw [put_get, put_get, if_pos (h0 rfl).symm]
  · next ha0 =>
    rw [put_get_ne _ _ (hne0 ha0).symm]
    by_cases ha1 : a = 1
    · rw [if_pos ha1, put_get, if_pos (h1 ha1).symm]
    · rw [if_neg ha1, put_get_ne _ _ (hne1 ha1).symm, Capture.sampled_slots_ne _ _ (hne1 ha1)]
      exact congrArg (fun i : Fin 4 => c.slots[i]) hsub

end

theorem isJump_iff {displacement : Option Int} : isJump displacement = true ↔
    ∃ x : Int, displacement = some x ∧ (64 < x ∨ x < -64) := by
  unfold isJump
  cases displacement with
  | none => simp
  | some d =>
    simp only [decide_eq_true_iff, Option.some.injEq, exists_eq_left']
    omega

theorem Slot.read_of_invalid {s : Slot} (h : s.validity ≠ .valid) : s.read = silence := if_neg h

/-- Settles O7: the verdict is that of R8, R9 and R13, the slots move on by one age, and the completion is offered. -/
theorem frameCompletionJudgesAndAges : Obligations.FrameCompletionJudgesAndAges := by
  intro straps displacement c detector
  have hdone : (c.complete straps displacement).2 =
      { validity := c.verdictOf straps displacement, clip := (c.completed straps displacement).clip
        mic := (c.micMoved straps displacement).mic } := congrArg Prod.snd (c.complete_eq straps displacement)
  have h1 : (c.complete straps displacement).1.ofAge 1 = c.completed straps displacement :=
    c.complete_ofAge straps displacement 1
  have hclip : (c.completed straps displacement).clip = ((c.sampled straps).slots[c.fill].clip &&
      decide (c.verdictOf straps displacement = .valid)) := rfl
  have hlisten : straps.role = .listen → c.verdictOf straps displacement ≠ .valid := fun hrole => by
    unfold Capture.verdictOf verdict
    split
    · decide
    · decide
  dsimp only
  rw [hdone, h1, ← isJump_iff]
  refine ⟨fun h => ?_, fun hj hf h => ?_, fun hj hf hrole htr => ?_, rfl, rfl, fun h => ?_, fun h => ?_,
    c.complete_ofAge straps displacement 2, c.complete_ofAge straps displacement 3, ?_, ?_, ?_, ?_, ?_, ?_,
    fun hrole => ?_, fun hrole => ?_⟩
  · refine if_pos ?_
    rcases h with h | h <;> simp [h]
  · dsimp only [Capture.verdictOf]
    unfold verdict
    rw [if_neg (by simp [hf, hj])]
    split
    · rfl
    · next hrole => rw [h.resolve_left hrole, if_neg (by decide)]
  · dsimp only [Capture.verdictOf]
    unfold verdict
    rw [if_neg (by simp [hf, hj]), if_neg hrole, if_pos htr]
  · refine ⟨?_, Slot.read_of_invalid h⟩
    rw [hclip, decide_eq_false h, Bool.and_false]
  · have hrole : straps.role ≠ .listen := fun hrole => hlisten hrole h
    have hsampled : c.sampled straps = c.takeSample straps.gain 63 := if_neg hrole
    refine ⟨?_, ?_⟩
    · rw [← hsampled]
      exact if_pos h
    · rw [hclip, hsampled, decide_eq_true h, Bool.and_true]
  · rw [Capture.complete_ofAge]
    rfl
  · rw [Capture.complete_ofAge]
    rfl
  · rw [Capture.complete_eq]
  · rw [Capture.complete_eq]
  · rw [Capture.complete_eq]
  · rw [Capture.complete_eq]
  · have hsampled : c.sampled straps = c := if_pos hrole
    rw [Capture.complete_eq, hsampled]
    exact ⟨rfl, rfl, rfl, if_pos hrole⟩
  · have hsampled : c.sampled straps = c.takeSample straps.gain 63 := if_neg hrole
    have hoffer : ∀ bank done, detector.offer straps.role bank done = match detector.processing with
        | none => detector.start bank done.mic
        | some _ => { detector with pending := some done } := fun bank done => if_neg hrole
    refine ⟨?_, ?_, ?_, fun hp => ?_, fun hp => ?_⟩
    · rw [Capture.complete_eq, hsampled]
      rfl
    · rw [Capture.complete_eq, hsampled]
      rfl
    · rw [Capture.complete_eq, hsampled]
      exact roundDiv_isRounded _ (by decide)
    · rw [hoffer, hp]
      unfold Detector.start
      dsimp only
      rw [h1]
      rfl
    · rw [hoffer]
      cases hproc : detector.processing with
      | none => exact absurd hproc hp
      | some p => rfl

/-! ## Microphone state (Table 1-3) -/

theorem mem_captureRecords_mic {before m : MicState} {done : Completion} :
    .mic m ∈ captureRecords before done ↔ m = done.mic ∧ done.mic ≠ before := by
  have hclip : RecordBody.mic m ∉ (if done.validity = .valid ∧ done.clip then [RecordBody.clip .capture] else []) := by
    split <;> simp
  unfold captureRecords
  rw [List.mem_append, or_iff_left hclip]
  split
  · next h => simp [h]
  · next h => simp [h]

/-- Settles O8: each row of Table 1-3 is a case of the update. -/
theorem microphoneStateFollowsTable : Obligations.MicrophoneStateFollowsTable := by
  intro straps displacement c
  dsimp only
  rw [Capture.complete_eq]
  dsimp only
  refine ⟨fun hrole => ?_, fun hrole => ?_, fun m => mem_captureRecords_mic⟩
  · rw [Capture.micMoved, if_pos hrole]
    exact ⟨rfl, rfl, rfl⟩
  · rw [Capture.micMoved, if_neg hrole]
    generalize c.verdictOf straps displacement = v
    refine ⟨?_, ?_, ?_, ?_, ?_, ?_, ?_⟩
    · rintro hmic rfl hcount
      simp [Capture.updateMic, hmic, hcount]
    · rintro hmic rfl hcount
      simp [Capture.updateMic, hmic, hcount]
    · rintro hmic rfl
      simp [Capture.updateMic, hmic]
    · rintro rfl
      cases hmic : c.mic <;> simp [Capture.updateMic, hmic]
    · rintro hmic rfl hcount
      have : c.goodCount ≠ 3 := by omega
      simp [Capture.updateMic, hmic, this]
    · rintro hmic rfl hcount
      simp [Capture.updateMic, hmic, hcount]
    · rintro hmic rfl
      simp [Capture.updateMic, hmic]

end Sys2Proof.Machine

/-! SUPPORT. The speech detector: one processing and its publication. -/

namespace Sys2Proof.Machine

/-! ## The publication (R17, R18) -/

theorem Detector.process_pending (straps : Straps) (p : Processing) (d : Detector) :
    (d.process straps p).pending = d.pending := by
  unfold Detector.process
  dsimp only
  split <;> rfl

theorem execDetectorPublication_some {s : State} (hr : s.inReset = false) {p : Processing}
    (hp : s.detector.processing = some p) :
    exec .detectorPublication s = .next ((s.elapse s.arbiter.detectorWait).publish p) := by
  refine congrArg Host.Outcome.next ?_
  rw [if_neg (by simp [hr]), hp]

/-- Without a pending completion the detector rests after the publication. -/
theorem State.publish_of_none {s : State} (p : Processing) (hpend : s.detector.pending = none) :
    s.publish p =
      { s with
        detector := { s.detector.process s.keys.straps p with processing := none, pending := none }
        lanes := { s.lanes with
          idleHold := s.lanes.idleHold && decide ((s.detector.process s.keys.straps p).outState = .silent) } } := by
  have hpend' := (s.detector.process_pending s.keys.straps p).trans hpend
  have htake : (s.detector.process s.keys.straps p).takePending s.capture =
      { s.detector.process s.keys.straps p with processing := none, pending := none } := by
    unfold Detector.takePending
    rw [hpend']
  unfold State.publish State.bindDetectorRead
  rw [htake]
  rfl

/-- With one, the detector starts to process the frame of age 1 (R18). -/
theorem State.publish_of_some {s : State} (p : Processing) {done : Completion}
    (hpend : s.detector.pending = some done) :
    s.publish p =
      { s with
        detector := { s.detector.process s.keys.straps p with
          processing := some
            { samples := (s.capture.ofAge 1).read, validity := (s.capture.ofAge 1).validity, mic := done.mic }
          pending := none }
        lanes := { s.lanes with
          idleHold := s.lanes.idleHold && decide ((s.detector.process s.keys.straps p).outState = .silent) }
        arbiter := { s.arbiter with
          reads := insertReads (Config.detectorFirst s.cycleStarts) (detectorReads (s.capture.fill - 1))
            s.arbiter.reads } } := by
  have hpend' := (s.detector.process_pending s.keys.straps p).trans hpend
  have htake : (s.detector.process s.keys.straps p).takePending s.capture =
      { s.detector.process s.keys.straps p with
        processing := some
          { samples := (s.capture.ofAge 1).read, validity := (s.capture.ofAge 1).validity, mic := done.mic }
        pending := none } := by
    unfold Detector.takePending
    rw [hpend']
    rfl
  unfold State.publish State.bindDetectorRead
  rw [htake]
  rfl

/-- A publication, less the processing and the read that begin with it. -/
theorem State.publish_spec {s : State} {p : Processing} {e : Detector}
    (hd : s.detector.process s.keys.straps p = e) :
    ∃ (x : Option Processing) (a : Arbiter), s.publish p =
      { s with
        detector := { e with processing := x, pending := none }
        lanes := { s.lanes with
          idleHold := s.lanes.idleHold && decide (e.outState = .silent) }
        arbiter := a } ∧
      (s.detector.pending = none → x = none ∧ a = s.arbiter) ∧
      ∀ done, s.detector.pending = some done →
        x = some { samples := (s.capture.ofAge 1).read, validity := (s.capture.ofAge 1).validity
                   mic := done.mic } ∧
        a = { s.arbiter with
          reads := insertReads (Config.detectorFirst s.cycleStarts) (detectorReads (s.capture.fill - 1))
            s.arbiter.reads } := by
  subst hd
  cases hpend : s.detector.pending with
  | none => exact ⟨_, _, State.publish_of_none p hpend, fun _ => ⟨rfl, rfl⟩, nofun⟩
  | some done =>
    exact ⟨_, _, State.publish_of_some p hpend, nofun, fun x hx => by cases hx; exact ⟨rfl, rfl⟩⟩

/-- Settles O13: forcing leaves SILENT with an empty history, so the idle hold stands (R29, R104). -/
theorem detectorIsForcedSilentByFault : Obligations.DetectorIsForcedSilentByFault := by
  intro s hr
  refine ⟨fun hp => ?_, fun p hp hmic => ?_⟩
  · refine congrArg Host.Outcome.next ?_
    rw [if_neg (by simp [hr]), hp]
  · have hprocess : (s.elapse s.arbiter.detectorWait).detector.process s.keys.straps p =
        { s.detector.force with outState := .silent, outScore := 0 } := by
      unfold Detector.process
      rw [if_pos hmic]
      rfl
    obtain ⟨x, a, he, hnone, hsome⟩ := State.publish_spec (s := s.elapse s.arbiter.detectorWait) hprocess
    refine ⟨_, execDetectorPublication_some hr hp, ?_⟩
    rw [he]
    refine ⟨rfl, hnone, hsome, ?_, ?_⟩ <;> simp only [decide_true, Bool.and_true] <;> rfl

/-! ## Presets and qualification (Tables 2-4, 2-7, R24) -/

theorem thresholds_eq (sens : Fin 4) : thresholds sens =
    { tHigh := (#v[30, 24, 18, 12] : Vector Nat 4)[sens], tLow := (#v[20, 16, 12, 8] : Vector Nat 4)[sens]
      zHigh := (#v[20, 18, 16, 14] : Vector Nat 4)[sens], zMax := (#v[48, 48, 50, 52] : Vector Nat 4)[sens] } := by
  revert sens
  decide

theorem hangoverLength_eq (hang : Fin 4) :
    hangoverLength hang = (#v[25, 50, 100, 200] : Vector Nat 4)[hang] := by
  revert hang
  decide

theorem qualifies_iff {t : Thresholds} {v : Validity} {z h : Nat} : qualifies t v z h = true ↔
    v = .valid ∧ z ≤ t.zMax ∧ (t.tHigh ≤ h ∨ (t.tLow ≤ h ∧ t.zHigh ≤ z)) := by
  simp only [qualifies, Bool.and_eq_true, Bool.or_eq_true, decide_eq_true_iff, and_assoc]

/-! ## State, score and noise floor (Tables 2-3, 2-5, 2-6) -/

/-- The noise floor and the rise counter, row by row (Table 2-3). -/
theorem noiseUpdate_cases (l floor rise : Nat) (before : DetState) :
    (l < floor → noiseUpdate l floor rise before = (max l (floor - 4), 0)) ∧
    (floor ≤ l → before ≠ .silent → noiseUpdate l floor rise before = (floor, 0)) ∧
    (floor ≤ l → before = .silent → rise ≠ 7 → noiseUpdate l floor rise before = (floor, rise + 1)) ∧
    (floor ≤ l → before = .silent → rise = 7 →
      noiseUpdate l floor rise before = (min 255 (floor + 1), 0)) := by
  unfold noiseUpdate
  refine ⟨fun h => if_pos h, fun h hb => ?_, fun h hb hrise => ?_, fun h hb hrise => ?_⟩ <;>
    rw [if_neg (Nat.not_lt.mpr h)]
  · rw [if_neg hb]
  · rw [if_pos hb, if_neg (by omega)]
  · rw [if_pos hb, if_pos (by omega)]

/-- The detector state from each state, row by row (Table 2-5), with `Q` for a frame that qualifies. -/
theorem nextDetState_rows {Q : Prop} {q : Bool} (hQ : q = true ↔ Q) (state : DetState) (hang length : Nat)
    (q2 q3 : Bool) :
    let e := nextDetState state hang length q q2 q3
    (state = .silent → (Q → e.1 = .onset) ∧ (¬ Q → e.1 = .silent)) ∧
    (state = .onset →
      ((Q ∧ (q2 = true ∨ q3 = true)) ∨ (q2 = true ∧ q3 = true) → e.1 = .speech) ∧
      (¬ Q → q2 = false → e.1 = .silent) ∧ (Q → q2 = false → q3 = false → e.1 = .onset) ∧
      (¬ Q → q2 = true → q3 = false → e.1 = .onset)) ∧
    (state = .speech → (Q → e.1 = .speech ∧ e.2 = 0) ∧ (¬ Q → e.1 = .hangover ∧ e.2 = length)) ∧
    (state = .hangover → (Q → e.1 = .speech ∧ e.2 = 0) ∧
      (¬ Q → 1 < hang → e.1 = .hangover ∧ e.2 = hang - 1) ∧
      (¬ Q → hang ≤ 1 → e.1 = .silent ∧ e.2 = 0)) := by
  simp only [← hQ, nextDetState]
  refine ⟨fun h => ?_, fun h => ?_, fun h => ?_, fun h => ?_⟩ <;> subst h
  case refine_2 => cases q <;> cases q2 <;> cases q3 <;> simp
  case refine_4 =>
    refine ⟨fun h => by simp [h], fun h hl => by simp [h, hl], fun h hl => by simp [h, Nat.not_lt.mpr hl]⟩
  all_goals cases q <;> simp

/-- The hangover counter stands in HANGOVER alone (Table 2-6). -/
theorem nextDetState_of_left_hangover (state : DetState) (hang length : Nat) (q1 q2 q3 : Bool) :
    (nextDetState state hang length q1 q2 q3).1 ≠ .hangover →
      (nextDetState state hang length q1 q2 q3).2 = 0 := by
  unfold nextDetState
  cases state <;> dsimp only <;> split_ifs <;> simp

/-- The noise floor and the rise counter move on a VALID frame alone (R22, R23). -/
theorem Detector.judge_noise (straps : Straps) (p : Processing) (d : Detector) :
    let e := d.judge straps p
    (p.validity ≠ .valid → e.floor = d.floor ∧ e.rise = d.rise) ∧
    (p.validity = .valid → level p.samples < d.floor →
      e.floor = max (level p.samples) (d.floor - 4) ∧ e.rise = 0) ∧
    (p.validity = .valid → d.floor ≤ level p.samples → d.state ≠ .silent →
      e.floor = d.floor ∧ e.rise = 0) ∧
    (p.validity = .valid → d.floor ≤ level p.samples → d.state = .silent → d.rise ≠ 7 →
      e.floor = d.floor ∧ e.rise = d.rise + 1) ∧
    (p.validity = .valid → d.floor ≤ level p.samples → d.state = .silent → d.rise = 7 →
      e.floor = min 255 (d.floor + 1) ∧ e.rise = 0) := by
  unfold Detector.judge
  generalize level p.samples = l
  obtain ⟨hlow, hhold, hrise, hstep⟩ := noiseUpdate_cases l d.floor d.rise d.state
  dsimp only
  refine ⟨fun hv => ?_, fun hv hl => ?_, fun hv hl hd => ?_, fun hv hl hd hr => ?_,
    fun hv hl hd hr => ?_⟩
  · rw [if_neg hv]; exact ⟨rfl, rfl⟩
  · rw [if_pos hv, hlow hl]; exact ⟨rfl, rfl⟩
  · rw [if_pos hv, hhold hl hd]; exact ⟨rfl, rfl⟩
  · rw [if_pos hv, hrise hl hd hr]; exact ⟨rfl, rfl⟩
  · rw [if_pos hv, hstep hl hd hr]; exact ⟨rfl, rfl⟩

/-- The score and the history are cleared in SILENT, and else move on (R25, R28). -/
theorem Detector.judge_score (straps : Straps) (p : Processing) (d : Detector) {h : Nat}
    (hh : (if p.validity = .valid then level p.samples - d.floor else 0) = h) {Q : Prop}
    (hQ : qualifies (thresholds straps.sens) p.validity (zeroCrossings p.samples) h = true ↔ Q) :
    let e := d.judge straps p
    (e.state = .silent → e.score = 0 ∧ e.hist1 = false ∧ e.hist2 = false ∧ e.hist3 = false) ∧
    (e.state ≠ .silent →
      e.score = max h (d.score - 2) ∧ (e.hist1 = true ↔ Q) ∧ e.hist2 = d.hist1 ∧ e.hist3 = d.hist2) := by
  subst hh
  simp only [Detector.judge, nextScore]
  refine ⟨fun h => by simp [h], fun h => by simp [h, hQ]⟩

/-- The state and the hangover counter move by Tables 2-5 and 2-6. -/
theorem Detector.judge_state (straps : Straps) (p : Processing) (d : Detector) {Q : Prop}
    (hQ : qualifies (thresholds straps.sens) p.validity (zeroCrossings p.samples)
      (if p.validity = .valid then level p.samples - d.floor else 0) = true ↔ Q) :
    let e := d.judge straps p
    (d.state = .silent → (Q → e.state = .onset) ∧ (¬ Q → e.state = .silent)) ∧
    (d.state = .onset →
      ((Q ∧ (d.hist1 = true ∨ d.hist2 = true)) ∨ (d.hist1 = true ∧ d.hist2 = true) → e.state = .speech) ∧
      (¬ Q → d.hist1 = false → e.state = .silent) ∧
      (Q → d.hist1 = false → d.hist2 = false → e.state = .onset) ∧
      (¬ Q → d.hist1 = true → d.hist2 = false → e.state = .onset)) ∧
    (d.state = .speech → (Q → e.state = .speech ∧ e.hangover = 0) ∧
      (¬ Q → e.state = .hangover ∧ e.hangover = hangoverLength straps.hang)) ∧
    (d.state = .hangover → (Q → e.state = .speech ∧ e.hangover = 0) ∧
      (¬ Q → 1 < d.hangover → e.state = .hangover ∧ e.hangover = d.hangover - 1) ∧
      (¬ Q → d.hangover ≤ 1 → e.state = .silent ∧ e.hangover = 0)) ∧
    (e.state ≠ .hangover → e.hangover = 0) := by
  obtain ⟨hsilent, honset, hspeech, hhang⟩ :=
    nextDetState_rows hQ d.state d.hangover (hangoverLength straps.hang) d.hist1 d.hist2
  exact ⟨hsilent, honset, hspeech, hhang, nextDetState_of_left_hangover _ _ _ _ _ _⟩

/-- Settles O12: each clause is a row of the detector's tables. -/
theorem detectorJudgesOneFrame : Obligations.DetectorJudgesOneFrame := by
  intro s p hr hp hmic
  have hok : ¬ p.mic = .fault := by rw [hmic]; decide
  have hprocess : (s.elapse s.arbiter.detectorWait).detector.process s.keys.straps p =
      { s.detector.judge s.keys.straps p with
        outState := (s.detector.judge s.keys.straps p).state
        outScore := (s.detector.judge s.keys.straps p).score } := by
    unfold Detector.process
    rw [if_neg hok]
    rfl
  obtain ⟨x, a, he, hnone, hsome⟩ := State.publish_spec (s := s.elapse s.arbiter.detectorWait) hprocess
  refine ⟨_, execDetectorPublication_some hr hp, ?_⟩
  rw [he]
  clear he hprocess
  have hq : qualifies (thresholds s.keys.straps.sens) p.validity (zeroCrossings p.samples)
      (if p.validity = .valid then level p.samples - s.detector.floor else 0) = true ↔ _ :=
    qualifies_iff
  have hstate := Detector.judge_state s.keys.straps p s.detector hq
  have hscore := Detector.judge_score s.keys.straps p s.detector rfl hq
  have hnoise := Detector.judge_noise s.keys.straps p s.detector
  rw [thresholds_eq] at hstate hscore
  rw [hangoverLength_eq] at hstate
  generalize s.detector.judge s.keys.straps p = j at *
  generalize level p.samples = l at *
  obtain ⟨hsilent, honset, hspeech, hhang, hleft⟩ := hstate
  obtain ⟨hrest, hactive⟩ := hscore
  obtain ⟨hfrozen, hlow, hhold, hrise, hstep⟩ := hnoise
  exact ⟨hsilent, honset, hspeech, hhang, hleft, hrest, hactive, hfrozen, hlow, hhold, hrise, hstep,
    rfl, rfl, rfl, hnone, hsome, rfl, rfl⟩

end Sys2Proof.Machine

/-! SUPPORT. The line frames: the report decoder reads the fourth request value as NONE. -/

namespace Sys2Proof.Machine

/-- A report that requests nothing. -/
def plainReport : Report :=
  { src := 0, role := .auto, holder := false, candidate := false, detector := .silent, score := 0
    request := .none, age := 0, held := none, closing := false, idle := false, muted := false
    muteAll := false, fingerprint := 0, digest := 0 }

/-- The body of `plainReport` with the fourth value, 3, in the request field. -/
def fourthRequestBody : List Bool :=
  (reportBody plainReport).take 18 ++ natBits 2 3 ++ (reportBody plainReport).drop 20

/-- The 83 bits with that body and its CRC-16, which no sender drives. -/
def fourthRequestBits : List Bool :=
  reportPattern ++ fourthRequestBody ++ natBits 16 (crc16 fourthRequestBody).toNat

/-- In `Request.ofCode` the name `none` is `Request.none`: the fourth value is read as request NONE and not
refused (R41). -/
theorem Request.ofCode_three : Request.ofCode 3 = some Request.none := rfl

theorem decodeReport_fourthRequestBits : decodeReport fourthRequestBits = some plainReport := by
  decide +kernel

theorem fourthRequestBits_ne : fourthRequestBits ≠ encodeReport plainReport := by
  decide +kernel

/-- Refutes O15: a report with the invalid request value 3 and a good CRC decodes as one that requests
NONE, which is not its encoding. -/
theorem not_framesDecodeExactlyTheirEncodings : ¬ Obligations.FramesDecodeExactlyTheirEncodings := by
  rintro ⟨-, hreport, -⟩
  exact fourthRequestBits_ne ((hreport _ _).mp decodeReport_fourthRequestBits)

end Sys2Proof.Machine

/-! SUPPORT. The beat decoder and the beat unit, command by command. -/

namespace Sys2Proof.Machine

/-! ## The beat decoder (R36, R39) -/

/-- An own beat is being sent. -/
def BeatRequest.Sending (r : BeatRequest) : Prop := ∃ kind cycle age, r = .sending kind cycle age

theorem BeatRequest.elapse_sending {s : State} (n : Nat) :
    (s.elapse n).beat.request.Sending ↔ s.beat.request.Sending := by
  cases h : s.beat.request <;> simp [Sending, State.elapse, Beat.elapse, h]

/-- Whether the decoder is busy at a start edge. -/
theorem execBeatCandidateFound_next {s : State} (hr : s.inReset = false) (position recessive : Nat) :
    let u := s.elapseTo position
    ((4 ≤ recessive ∧ 4 ≤ s.line.beatQuiet + (position - s.beat.timer)) →
      s.line.candidate = none → ¬ s.beat.request.Sending →
      execBeatCandidateFound position recessive s =
        .next { u with line := { u.line with candidate := some 0 } }) ∧
    (¬ (4 ≤ recessive ∧ 4 ≤ s.line.beatQuiet + (position - s.beat.timer)) ∨ s.line.candidate ≠ none ∨
      s.beat.request.Sending → execBeatCandidateFound position recessive s = .next u) := by
  intro u
  have hedge : isStartEdge (min recessive u.line.beatQuiet) = true ↔
      4 ≤ recessive ∧ 4 ≤ s.line.beatQuiet + (position - s.beat.timer) := by
    simp only [isStartEdge, edgeQuiet, decide_eq_true_iff, u, State.elapseTo, State.elapse, Line.elapse]
    omega
  have hcand : u.line.candidate.isSome = s.line.candidate.isSome := Option.isSome_map ..
  have hsend : u.beat.request.Sending ↔ s.beat.request.Sending := BeatRequest.elapse_sending _
  have hexec : execBeatCandidateFound position recessive s = .next
      (if isStartEdge (min recessive u.line.beatQuiet) ∧
          (match u.beat.request with
            | .sending _ _ _ => true
            | _ => u.line.candidate.isSome) = false
        then { u with line := { u.line with candidate := some 0 } } else u) :=
    congrArg Host.Outcome.next (if_neg (by simp [hr]))
  rw [hexec]
  refine ⟨fun he hnone hfree => ?_, fun h => ?_⟩
  · refine congrArg Host.Outcome.next (if_pos ⟨hedge.mpr he, ?_⟩)
    rw [← hsend] at hfree
    split
    next hs => exact absurd ⟨_, _, _, hs⟩ hfree
    next => rw [hcand, hnone]; rfl
  · refine congrArg Host.Outcome.next (if_neg fun ⟨he, hbusy⟩ => ?_)
    split at hbusy
    next => cases hbusy
    next hno =>
      rw [hcand] at hbusy
      rcases h with h | h | h
      · exact h (hedge.mp he)
      · exact h (by simpa using hbusy)
      · obtain ⟨kind, cycle, age, h⟩ := hsend.mpr h
        exact hno _ _ _ h

theorem execBeatCandidateDropped_of_some {s : State} (hr : s.inReset = false) {age : Nat}
    (hc : s.line.candidate = some age) (word : BitVec 32) :
    execBeatCandidateDropped word s = .next (if (decodeBeat (natBits 32 word.toNat)).isSome then s
      else (s.elapse ((if (natBits 32 word.toNat).take 8 = beatPattern then 32 else 8) - age)).dropCandidate) := by
  refine congrArg Host.Outcome.next ?_
  rw [if_neg (by simp [hr]), hc]
  have hpattern : hasBeatPattern word = decide ((natBits 32 word.toNat).take 8 = beatPattern) := rfl
  by_cases hpat : (natBits 32 word.toNat).take 8 = beatPattern
  · simp only [hpattern, hpat, decide_true, if_true]; rfl
  · simp only [hpattern, hpat, decide_false, if_false, Bool.false_eq_true]; rfl

/-- The readings of a delivered candidate are at an end: 32 bits from its start edge. -/
def State.delivered (age : Nat) (s : State) : State := (s.elapse (32 - age)).dropCandidate

theorem execGoodBeatDelivered_of_not_good {s : State} (hr : s.inReset = false) {age : Nat}
    (hc : s.line.candidate = some age) {word : BitVec 32} {keys : KeyPins}
    (h : decodeBeat (natBits 32 word.toNat) = none ∨ s.beat.request.Sending) :
    execGoodBeatDelivered word keys s = .next (s.delivered age) := by
  refine congrArg Host.Outcome.next ?_
  rw [if_neg (by simp [hr]), hc]
  change (match (s.delivered age).beat.request, decodeBeat (natBits 32 word.toNat) with
    | .sending _ _ _, _ => _ | _, none => _ | _, some _ => _) = _
  rcases h with h | h
  · rw [h]
    split
    next => rfl
    next => rfl
    next hgood _ => cases hgood
  · obtain ⟨kind, cycle, a, h⟩ := (BeatRequest.elapse_sending (32 - age)).mpr h
    rw [show (s.delivered age).beat.request = _ from h]
    rfl

theorem execGoodBeatDelivered_of_good {s : State} (hr : s.inReset = false) {age : Nat}
    (hc : s.line.candidate = some age) {word : BitVec 32} {c : BitVec 16} (keys : KeyPins)
    (hgood : decodeBeat (natBits 32 word.toNat) = some c) (hfree : ¬ s.beat.request.Sending) :
    execGoodBeatDelivered word keys s = .next ((s.delivered age).takeBeat c (max age 32) keys) := by
  refine congrArg Host.Outcome.next ?_
  rw [if_neg (by simp [hr]), hc]
  change (match (s.delivered age).beat.request, decodeBeat (natBits 32 word.toNat) with
    | .sending _ _ _, _ => _ | _, none => _ | _, some _ => _) = _
  rw [hgood]
  rw [← BeatRequest.elapse_sending (32 - age)] at hfree
  split
  next hs => exact absurd ⟨_, _, _, hs⟩ hfree
  next => contradiction
  next h _ => cases h; rfl

/-- Settles O14. -/
theorem candidateIsTakenAndDropped : Obligations.CandidateIsTakenAndDropped := by
  refine ⟨fun position recessive s hr => execBeatCandidateFound_next hr position recessive,
    fun word keys s hr => ⟨fun hnone => ⟨?_, ?_⟩, fun age hc => ⟨fun hpat => ?_, fun hpat hbad => ?_,
      fun hgood => ?_, fun h => execGoodBeatDelivered_of_not_good hr hc h⟩⟩⟩
  · refine congrArg Host.Outcome.next ?_
    rw [if_neg (by simp [hr]), hnone]
  · refine congrArg Host.Outcome.next ?_
    rw [if_neg (by simp [hr]), hnone]
  all_goals refine (execBeatCandidateDropped_of_some hr hc word).trans (congrArg Host.Outcome.next ?_)
  · have hbad : decodeBeat (natBits 32 word.toNat) = none := by
      unfold decodeBeat
      exact if_neg fun h => hpat h.2.1
    rw [hbad, if_neg (by simp), if_neg hpat]
    rfl
  · rw [hbad, if_neg (by simp), if_pos hpat]
    rfl
  · rw [if_pos (Option.isSome_iff_ne_none.mpr hgood)]

end Sys2Proof.Machine

/-! SUPPORT. The beat unit, command by command: which cycle start or which beat follows. -/

namespace Sys2Proof.Machine

/-! ## Cycle starts by the timer and by a received beat (R49 to R51, R54) -/

/-- Settles O17. -/
theorem timerExpiryAndBeatWait : Obligations.TimerExpiryAndBeatWait := by
  refine ⟨fun keys s hr => ⟨fun hs => ⟨_, ?_, State.cycleStart_begun _ _⟩, fun hs => ?_⟩,
    fun s hr => ⟨fun hs => ?_, fun hs => ?_⟩⟩ <;> refine congrArg Host.Outcome.next ?_
  · rw [if_neg (by simp [hr]), if_pos hs]
    rfl
  · rw [if_neg (by simp [hr]), if_neg hs]
  · rw [if_neg (by simp [hr]), if_neg hs]
    rfl
  · rw [if_neg (by simp [hr]), if_pos hs]

/-- A delivered good beat, by the sync state and the wait (R49 to R51). -/
theorem State.takeBeat_delivered (s : State) (candidate : Nat) (c : BitVec 16) (keys : KeyPins) :
    let u := s.delivered candidate
    let age := max candidate 32
    let start : Int := (u.beat.timer : Int) - age
    (s.beat.sync = .listen → u.takeBeat c age keys = u.hearBeat c start age keys) ∧
    (s.beat.sync ≠ .listen → s.beat.waitOpen = true → 12280 ≤ start →
      u.takeBeat c age keys = u.acceptBeat c start age keys) ∧
    (s.beat.sync ≠ .listen → s.beat.waitOpen = false ∨ start < 12280 →
      u.takeBeat c age keys = u.adoptBeat c start age keys) := by
  intro u age start
  refine ⟨fun h => if_pos h, fun h hw hs => ?_, fun h hw => ?_⟩ <;> refine (if_neg h).trans ?_
  · refine if_pos ?_
    unfold State.inWait
    rw [show u.beat.waitOpen = true from hw, Bool.true_and]
    exact decide_eq_true hs
  · refine if_neg ?_
    unfold State.inWait
    rcases hw with hw | hw
    · rw [show u.beat.waitOpen = false from hw, Bool.false_and]
      decide
    · rw [Bool.and_eq_true, not_and]
      exact fun _ h => absurd (of_decide_eq_true h) (not_le.mpr hw)

/-- Settles O18. -/
theorem beatHeardInListenAligns : Obligations.BeatHeardInListenAligns := by
  intro word keys s candidate c hr hs hc hgood hfree
  refine ⟨_, execGoodBeatDelivered_of_good hr hc keys hgood ?_, ?_⟩
  · rintro ⟨kind, cycle, a, h⟩
    exact hfree kind cycle a h
  · rw [(State.takeBeat_delivered s candidate c keys).1 hs]
    exact State.cycleStart_begun _ _

/-- Settles O20. -/
theorem beatOutsideTheWaitIsAdopted : Obligations.BeatOutsideTheWaitIsAdopted := by
  intro word keys s candidate c hr hs hc hgood hfree u age start hw
  refine ⟨_, execGoodBeatDelivered_of_good hr hc keys hgood ?_, ?_⟩
  · rintro ⟨kind, cycle, a, h⟩
    exact hfree kind cycle a h
  · rw [(State.takeBeat_delivered s candidate c keys).2.2 hs hw]
    exact State.cycleStart_begun _ _

/-- Whether a beat in the wait confirms (R54). -/
theorem confirms_iff {p : Prop} [Decidable p] {start : Int} {first : Bool} :
    (decide p && confirms start && first) = true ↔
      p ∧ first = true ∧ 12283 ≤ start ∧ start ≤ 12293 := by
  have hlow : (expiry : Int) - 5 ≤ start ↔ 12283 ≤ start := by simp [expiry]
  have hhigh : start ≤ (expiry : Int) + 5 ↔ start ≤ 12293 := by simp [expiry]
  simp only [confirms, Bool.and_eq_true, decide_eq_true_iff, hlow, hhigh]
  tauto

/-- A jump record and the record of a change, in either order (log entry 3). -/
theorem jumpRecord_orders (first : Bool) (c expected : BitVec 16) (old new : SyncState) (holder : Option Addr)
    (change : List RecordBody) :
    let jump := jumpRecord c expected (if first then old else new) holder
    let records := if first then jump ++ change else change ++ jump
    (jump = [] ∧ c = expected ∧ records = change) ∨
      (c ≠ expected ∧
        ((jump = [.sync old .cycleJump holder] ∧ records = jump ++ change) ∨
         (jump = [.sync new .cycleJump holder] ∧ records = change ++ jump))) := by
  by_cases h : c = expected
  · cases first <;> simp [jumpRecord, h]
  · cases first <;> simp [jumpRecord, h]

/-- Settles O19: the free order of log entry 3 decides which sync state a jump record names. -/
theorem beatInTheWaitIsAccepted : Obligations.BeatInTheWaitIsAccepted := by
  intro word keys s candidate c hr hs hwait hc hgood hfree u age start hw confirmed
  have hnext := execGoodBeatDelivered_of_good hr hc keys hgood (fun ⟨kind, cycle, a, h⟩ => hfree kind cycle a h)
  rw [(State.takeBeat_delivered s candidate c keys).2.1 hs hwait hw] at hnext
  have hconf : (decide (s.beat.sync = .aligning) && confirms start && s.beat.firstBeat) = true ↔ confirmed :=
    confirms_iff
  refine ⟨_,
    if decide (s.beat.sync = .aligning) && confirms start && s.beat.firstBeat then .observing else s.beat.sync,
    if decide (s.beat.sync = .aligning) && confirms start && s.beat.firstBeat then 0 else s.beat.obsCount,
    jumpRecord c (s.beat.cycle + 1) (if Config.jumpFirst s.cycleStarts then s.beat.sync else
      if decide (s.beat.sync = .aligning) && confirms start && s.beat.firstBeat then .observing
      else s.beat.sync) s.beat.holder,
    if decide (s.beat.sync = .aligning) && confirms start && s.beat.firstBeat then
      [.sync .observing .confirmed s.beat.holder] else [],
    _, fun h => ?_, fun h => ?_, ?_, hnext, State.cycleStart_begun _ _⟩
  · simp only [if_pos (hconf.mpr h), and_self]
  · simp only [if_neg (mt hconf.mp h), and_self]
  · exact jumpRecord_orders _ _ _ _ _ _ _

end Sys2Proof.Machine

/-! SUPPORT. Own beats: when they start, and how they end. -/

namespace Sys2Proof.Machine

/-! ## Requesting a beat (R53, R60, R61) -/

/-- A requested beat waits for a candidate that started before, and else starts. -/
theorem State.requestBeat_spec {kind : BeatKind} {s : State} (h : beatAdmitted kind s.beat.sync = true) :
    ((∃ age, s.line.candidate = some age ∧ 0 < age) →
      s.requestBeat kind = { s with beat := { s.beat with request := .waiting kind } }) ∧
    ((∀ age, s.line.candidate = some age → age = 0) → s.requestBeat kind = { s with
      beat := { s.beat with request := .sending kind (s.beatCycle kind) 0 }
      line := { s.line with
        candidate := none, tx := some { kind := .beat, bits := encodeBeat (s.beatCycle kind), sent := 0 } } }) := by
  refine ⟨fun ⟨age, hc, hpos⟩ => if_pos ?_, fun hc => (if_neg ?_).trans (if_pos h)⟩ <;>
    unfold State.readingCandidate
  · rw [hc]
    exact decide_eq_true hpos
  · split
    next age hage => simp [hc age hage]
    next => simp

theorem State.startBeat_of_free {kind : BeatKind} {s : State} (h : beatAdmitted kind s.beat.sync = true)
    (hfree : s.line.candidate = none) : s.startBeat kind = { s with
      beat := { s.beat with request := .sending kind (s.beatCycle kind) 0 }
      line := { s.line with tx := some { kind := .beat, bits := encodeBeat (s.beatCycle kind), sent := 0 } } } := by
  have hline : s.line = { s.line with candidate := none } := by rw [← hfree]
  unfold State.startBeat
  rw [if_pos h]
  exact congrArg (fun l : Line => { s with
    beat := { s.beat with request := .sending kind (s.beatCycle kind) 0 }
    line := { l with tx := some { kind := .beat, bits := encodeBeat (s.beatCycle kind), sent := 0 } } }) hline.symm

/-- Settles O21. -/
theorem foundingAndDeferredBeatsStart : Obligations.FoundingAndDeferredBeatsStart := by
  refine ⟨fun s left hr hs hcold => ?_, fun s hr => ⟨fun h => ?_, fun h => ?_⟩, fun s kind hr hw hc => ?_⟩
  · have hexec : exec .coldStartExpiry s = .next (State.requestBeat .founding
        { s.elapse left with beat := { (s.elapse left).beat with coldStart := none } }) := by
      refine congrArg Host.Outcome.next ?_
      rw [if_neg (by simp [hr]), hs, hcold]
    have hadmit : beatAdmitted .founding s.beat.sync = true := decide_eq_true hs
    obtain ⟨hwaits, hstarts⟩ := State.requestBeat_spec (kind := .founding)
      (s := { s.elapse left with beat := { (s.elapse left).beat with coldStart := none } }) hadmit
    exact ⟨fun h => hexec.trans (congrArg _ (hwaits h)), fun h => hexec.trans (congrArg _ (hstarts h))⟩
  · refine congrArg Host.Outcome.next ?_
    rw [if_neg (by simp [hr])]
    split
    next hs hcold => simp [hs, hcold] at h
    next => rfl
  · refine congrArg Host.Outcome.next ?_
    rw [if_neg (by simp [hr])]
    split
    next hw hc => simp [hw, hc] at h
    next => rfl
  · have hexec : exec .deferredBeatStart s = .next ((s.elapse 1).startBeat kind) := by
      refine congrArg Host.Outcome.next ?_
      rw [if_neg (by simp [hr]), hw, hc]
    have hnone : (s.elapse 1).line.candidate = none := by simp [State.elapse, Line.elapse, hc]
    have hadmit : beatAdmitted kind s.beat.sync = true ↔
        s.beat.sync = if kind = .founding then SyncState.listen else .locked := by
      cases kind <;> exact decide_eq_true_iff
    have hcycle : (s.elapse 1).beatCycle kind = if kind = .founding then 0 else s.beat.cycle + 1 := by
      cases kind <;> rfl
    intro u cycle state
    rw [hexec, ← show (s.elapse 1).beatCycle kind = cycle from hcycle]
    exact ⟨fun hs => congrArg _ (State.startBeat_of_free (hadmit.mpr hs) hnone),
      fun hs => congrArg _ (if_neg (mt hadmit.mp hs))⟩

/-- Settles O22. -/
theorem holderAndTakerSendTheBeat : Obligations.HolderAndTakerSendTheBeat := by
  intro s hr hs
  have hholder : s.isHolder = true ↔ s.beat.holder = some s.own ∧ s.beat.barred = 0 := by
    simp [State.isHolder, hs]
  refine ⟨fun hbar hhold hidle => ?_, fun h => ?_, fun r hrank hbar hwait => ?_, fun h => ?_, fun p hp => ?_,
    fun hp => ?_⟩
  · have hexec : exec .holderBeatRequest s = .next ((s.elapseTo 12288).requestBeat .holder) := by
      refine congrArg Host.Outcome.next ?_
      rw [if_neg (by simp [hr]), if_pos ⟨hholder.mpr ⟨hhold, hbar⟩, hidle⟩]
      rfl
    obtain ⟨hwaits, hstarts⟩ := State.requestBeat_spec (kind := .holder) (s := s.elapseTo 12288)
      (decide_eq_true hs)
    exact ⟨fun h => hexec.trans (congrArg _ (hwaits h)), fun h => hexec.trans (congrArg _ (hstarts h))⟩
  · refine congrArg Host.Outcome.next ?_
    rw [if_neg (by simp [hr]), if_neg]
    rw [hholder]
    tauto
  · refine congrArg Host.Outcome.next ?_
    rw [if_neg (by simp [hr]), hrank]
    exact if_pos ⟨hs, hbar, hwait⟩
  · refine congrArg Host.Outcome.next ?_
    rw [if_neg (by simp [hr])]
    split
    next => rfl
    next r hrank =>
      refine if_neg fun ⟨_, hbar, hwait⟩ => ?_
      simp [hrank, hbar, hwait] at h
  · have hexec : exec .takerBeatStart s = .next (State.requestBeat .taker
        { s.elapseTo p with beat := { (s.elapseTo p).beat with takerAt := none } }) := by
      refine congrArg Host.Outcome.next ?_
      rw [if_neg (by simp [hr]), hp]
    obtain ⟨hwaits, hstarts⟩ := State.requestBeat_spec (kind := .taker)
      (s := { s.elapseTo p with beat := { (s.elapseTo p).beat with takerAt := none } }) (decide_eq_true hs)
    exact ⟨fun h => hexec.trans (congrArg _ (hwaits h)), fun h => hexec.trans (congrArg _ (hstarts h))⟩
  · refine congrArg Host.Outcome.next ?_
    rw [if_neg (by simp [hr]), hp]

/-! ## The readback of an own beat (R43) -/

/-- A readback of full length is clean exactly when it reads as sent (R43). -/
theorem firstDiff_eq_none {sent read : List Bool} (h : sent.length = read.length) :
    firstDiff sent read = none ↔ read = sent := by
  unfold firstDiff
  induction sent generalizing read with
  | nil => cases read with
    | nil => simp
    | cons => simp at h
  | cons x sent ih =>
    cases read with
    | nil => simp at h
    | cons y read =>
      have hrest := ih (read := read) (by simpa using h)
      rw [List.zip_cons_cons, List.findIdx?_cons]
      by_cases hxy : x = y
      · simp [hxy, hrest]
      · simp [hxy, Ne.symm hxy]

theorem compareReadback_clean {sent read : List Bool} (h : sent.length = read.length) :
    compareReadback sent read = if read = sent then .clean else .collision := by
  unfold compareReadback
  by_cases heq : read = sent
  · rw [if_pos heq, (firstDiff_eq_none h).mpr heq]
    rfl
  · rw [if_neg heq, if_pos (Option.isSome_iff_ne_none.mpr (mt (firstDiff_eq_none h).mp heq))]

theorem encodeBeat_length (c : BitVec 16) : (encodeBeat c).length = 32 := by
  simp [encodeBeat, beatPattern, natBits]

/-- The own beat is through, at its last bit. -/
def State.beatThrough (sent : Nat) (s : State) : State := (s.elapse (32 - sent)).endBeat

theorem execBeatReadbackOutcome_sending {s : State} (hr : s.inReset = false) {kind : BeatKind}
    {cycle : BitVec 16} {sent : Nat} (hsend : s.beat.request = .sending kind cycle sent) (read : BitVec 32)
    (keys : KeyPins) :
    (natBits 32 read.toNat = encodeBeat cycle → execBeatReadbackOutcome read keys s =
      .next (if kind = .founding then (s.beatThrough sent).found (max sent 32) keys
        else (s.beatThrough sent).ownBeatClean (max sent 32) keys)) ∧
    (natBits 32 read.toNat ≠ encodeBeat cycle → execBeatReadbackOutcome read keys s =
      .next (if kind = .founding then (s.beatThrough sent).refound else (s.beatThrough sent).bar)) := by
  have hcompare : compareReadback (encodeBeat cycle) (readBits read) =
      if natBits 32 read.toNat = encodeBeat cycle then .clean else .collision :=
    compareReadback_clean (by rw [encodeBeat_length, readBits, natBits, List.length_map, List.length_range])
  refine ⟨fun h => congrArg Host.Outcome.next ?_, fun h => congrArg Host.Outcome.next ?_⟩ <;>
    rw [if_neg (by simp [hr]), hsend]
  · rw [if_pos h] at hcompare
    simp only [hcompare]
    cases kind <;> rfl
  · rw [if_neg h] at hcompare
    simp only [hcompare]
    cases kind <;> rfl

/-- Settles O23. -/
theorem cleanBeatStartsItsCycle : Obligations.CleanBeatStartsItsCycle := by
  intro read keys s kind cycle sent hr hsend hread u age v
  have hexec := (execBeatReadbackOutcome_sending hr hsend read keys).1 hread
  refine ⟨fun hk => ⟨_, hexec, ?_⟩, fun hk hw => ⟨_, hexec, ?_⟩, fun hk hw => hexec.trans (congrArg _ ?_)⟩
  · rw [if_pos hk]
    exact State.cycleStart_begun _ _
  · rw [if_neg hk, State.ownBeatClean, if_pos (show (s.beatThrough sent).beat.waitOpen = true from hw)]
    exact State.cycleStart_begun _ _
  · rw [if_neg hk, State.ownBeatClean,
      if_neg (show ¬ (s.beatThrough sent).beat.waitOpen = true by simp [show (s.beatThrough sent).beat.waitOpen = false from hw])]
    rfl

/-- Settles O24. -/
theorem collidingBeatBarsOrWaits : Obligations.CollidingBeatBarsOrWaits := by
  refine ⟨fun read keys s hr hno => ?_, fun read keys s kind cycle sent hr hsend hread => ?_⟩
  · refine congrArg Host.Outcome.next ?_
    rw [if_neg (by simp [hr])]
    split
    next kind cycle age hs => exact absurd hs (hno kind cycle age)
    next => rfl
  · have hexec := (execBeatReadbackOutcome_sending hr hsend read keys).2 hread
    exact ⟨fun hk => hexec.trans (congrArg _ (if_pos hk)), fun hk => hexec.trans (congrArg _ (if_neg hk))⟩

/-! ## Beat failures (R54, R63) -/

theorem execBeatHorizon_waiting {s : State} (hr : s.inReset = false) (hs : s.beat.sync ≠ .listen)
    (hw : s.beat.waitOpen = true) (keys : KeyPins) :
    let u := s.elapseTo 12816
    let cs : CycleStart :=
      { age := u.beat.timer - 12816, cycle := s.beat.cycle + 1, displacement := none, own := false
        sync := s.beat.sync, records := [], keys := keys }
    execBeatHorizon keys s =
      .next (if s.beat.sync = .aligning then u.failAligning cs else u.failJoined cs) := by
  refine congrArg Host.Outcome.next ?_
  rw [if_neg (by simp [hr]), if_pos ⟨hs, hw⟩]
  rfl

/-- Settles O25. -/
theorem beatFailureContinuesTheCycle : Obligations.BeatFailureContinuesTheCycle := by
  refine ⟨fun keys s hr h => congrArg Host.Outcome.next ?_, fun keys s hr hs hw => ?_⟩
  · rw [if_neg (by simp [hr]), if_neg]
    rcases h with h | h <;> simp [h]
  · have hexec := execBeatHorizon_waiting hr hs hw keys
    refine ⟨fun hf ha => ⟨_, hexec, ?_⟩, fun hf ha => ⟨_, hexec, ?_⟩, fun hf ha => ⟨_, hexec, ?_⟩⟩
    · have hstays : ¬ 3 ≤ (s.elapseTo 12816).beat.failures + 1 := not_le.mpr (Nat.succ_lt_succ hf)
      rw [if_neg ha, State.failJoined, decide_eq_false hstays]
      exact State.cycleStart_begun _ _
    · have hstays : (s.elapseTo 12816).beat.failures + 1 < 3 := Nat.succ_lt_succ hf
      rw [if_pos ha, State.failAligning, if_pos hstays]
      exact State.cycleStart_begun _ _
    · have hthird : ¬ (s.elapseTo 12816).beat.failures + 1 < 3 :=
        not_lt.mpr (Nat.succ_le_succ (ge_of_eq hf))
      rw [if_pos ha, State.failAligning, if_neg hthird]
      exact State.cycleStart_begun _ _

end Sys2Proof.Machine

/-! SUPPORT. The rejoin on beat loss (R63, R64). -/

namespace Sys2Proof.Machine

/-- The keys at a cycle start at which the node rejoins: the blink ends uncounted (R156). -/
theorem KeyUnit.moved_listen {old : SyncState} (h : old ≠ .listen) (pins : KeyPins) (k : KeyUnit) :
    KeysMoved old .listen pins k
      (((KeyUnit.blinkTick old .listen k).sampleKeys pins).onSync old .listen) := by
  have hmoved := KeyUnit.moved old .listen pins k
  have hblink (k : KeyUnit) : KeyUnit.blinkTick old .listen k = k := if_neg (by simp [SyncState.blinks])
  rw [if_neg (Ne.symm h), hblink] at hmoved
  rw [hblink]
  exact hmoved

theorem insertReads_not_transmitter (first : Bool) (slot : Fin 4) {old : List BankRead}
    (h : ∀ r ∈ old, r.reader ≠ .transmitter) :
    (insertReads first (detectorReads slot) old).filter (fun r => r.reader ≠ .transmitter) =
      insertReads first (detectorReads slot) old := by
  refine List.filter_eq_self.mpr fun r hr => decide_eq_true ?_
  rcases mem_insertReads.mp hr with hr | hr
  · obtain ⟨i, -, rfl⟩ := List.mem_map.mp hr
    exact nofun
  · exact h r hr

/-- A rejoin after a cycle start leaves the transmitter's read ended, as it is. -/
theorem State.arbiterBegun_rejoin (bank : Capture) (s : State) :
    s.ArbiterBegun bank (s.arbiterAtCycleStart bank).endTransmitter := by
  have hended : ∀ r ∈ s.arbiter.endTransmitter.reads, r.reader ≠ .transmitter := fun r hr =>
    of_decide_eq_true (List.mem_filter.mp hr).2
  unfold State.arbiterAtCycleStart
  refine ⟨fun h => ?_, fun h => ?_⟩
  · rw [if_pos h, Arbiter.endTransmitter_endTransmitter]
    rfl
  · rw [if_neg h]
    by_cases hp : s.detector.processing.isSome = true
    · rw [if_pos hp, if_pos hp]
      exact ⟨rfl, congrArg Arbiter.reads s.arbiter.endTransmitter_endTransmitter⟩
    · rw [if_neg hp, if_neg hp]
      exact ⟨rfl, insertReads_not_transmitter _ _ hended⟩

theorem State.OffTheLine.summaryTick {s : State} (h : s.OffTheLine) : s.summaryTick.1.OffTheLine := by
  unfold State.summaryTick
  split <;> exact ⟨h.sync, h.holder, h.flags, h.counters, h.coldStart, h.requests, h.peers, h.census, h.tables,
    h.lanes, h.audio, h.mix, h.driver, h.bank, h.spans⟩

theorem State.OffTheLine.raise {s : State} (h : s.OffTheLine) (bs : List RecordBody) :
    (s.raise bs).OffTheLine :=
  ⟨h.sync, h.holder, h.flags, h.counters, h.coldStart, h.requests, h.peers, h.census, h.tables,
    h.lanes, h.audio, h.mix, h.driver, h.bank, h.spans⟩

/-- The SUMMARY of a node that is off the line lists nobody (R138, R167). -/
theorem State.OffTheLine.summaryTick_records {s : State} (h : s.OffTheLine) : s.summaryTick.2 =
    if s.status.summaryCount < 249 then [] else
      [.summary (Vector.replicate 4 none) (Vector.replicate 16 false) none s.audio.unlisted] := by
  rw [State.summaryTick_records, h.holder.1]
  have howners : (Vector.ofFn fun l => s.lanes.table[l].owner) = Vector.replicate 4 none := by
    refine vector_ext_fin fun l => ?_
    rw [ofFn_get, (h.tables l).1]
    simp [LaneEntry.owner]
  have hpresent : (Vector.ofFn fun a => decide (s.census.peers[a].presence = .present)) =
      Vector.replicate 16 false := by
    refine vector_ext_fin fun a => ?_
    rw [ofFn_get, (h.peers a).1]
    simp
  rw [howners, hpresent]

/-- A continuing cycle start at which the node rejoins: the blocks that leave the line, and those that go on. -/
theorem State.cycleStart_rejoins {s : State} {cs : CycleStart} (hs : s.beat.sync ≠ .listen)
    (hd : cs.displacement = none) (hsync : cs.sync = s.beat.sync) :
    let t := s.cycleStart cs true
    t.OffTheLine ∧ t.beat.timer = cs.age ∧ t.beat.cycle = cs.cycle ∧
      t.capture = (s.capture.complete s.keys.straps none).1 ∧
      t.detector = s.detector.offer s.role t.capture (s.capture.complete s.keys.straps none).2 ∧
      KeysMoved s.beat.sync .listen cs.keys s.keys t.keys ∧ s.ArbiterBegun t.capture t.arbiter ∧
      t.line.tx = (s.line.tx.map fun x => { x with bits := x.bits.take (x.sent + 1) }) ∧
      t.line.candidate = s.line.candidate ∧ t.line.beatQuiet = s.line.beatQuiet ∧
      t.audio.unlisted = (s.audio.unlisted && decide (s.status.summaryCount < 249)) ∧
      t.mix.refAge = 0 ∧ t.mix.oclk = s.mix.oclk ∧ t.mix.frame = s.mix.frame ∧
      (∃ capture, CaptureRaises s.capture.mic (s.capture.complete s.keys.straps none).2 capture ∧
        StatusMoved cs.cycle
          ([.sync .listen .lost none] ++
            (match s.lanes.table.laneOf s.own with
              | some l => [.gate l false .lost]
              | none => []) ++
            (if s.lanes.request = .none then [] else [.request .none 0]))
          capture
          (if s.status.summaryCount < 249 then [] else
            [.summary (Vector.replicate 4 none) (Vector.replicate 16 false) none s.audio.unlisted])
          s.status t.status) ∧
      t.inReset = s.inReset ∧ t.pending = s.pending ∧ t.cycleStarts = s.cycleStarts + 1 := by
  intro t
  have hleave : s.leaveCycle cs = s := by
    unfold State.leaveCycle
    rw [hd]
    rfl
  have hoff : ((s.beginCycle cs true).1.rejoin .lost).1.OffTheLine := State.rejoin_offTheLine _ _
  have htx : t.line = (s.beginCycle cs true).1.line.rejoin := by simp [t, State.afterCycleStart]
  have hmix : t.mix = ((s.beginCycle cs true).1.rejoin .lost).1.mix := by simp [t, State.afterCycleStart]
  refine ⟨hoff.summaryTick.raise _, ?_, ?_, ?_, ?_, ?_, ?_, ?_, ?_, ?_, ?_, ?_, ?_, ?_, ⟨_, rfl, ?_⟩, ?_, ?_, ?_⟩
  · simp [t, State.afterCycleStart, Beat.cycleStart]
  · simp [t, State.afterCycleStart, Beat.cycleStart]
  · simp [t, State.afterCycleStart, hd]
  · simp [t, State.afterCycleStart, hd]
  · simpa [t, State.afterCycleStart, hsync] using KeyUnit.moved_listen hs cs.keys s.keys
  · simpa [t, State.afterCycleStart, State.rejoin_arbiter] using s.arbiterBegun_rejoin _
  · rw [htx, State.beginCycle_line, hleave]
    rfl
  · rw [htx, State.beginCycle_line, hleave]
    rfl
  · rw [htx, State.beginCycle_line, hleave]
    rfl
  · simp only [t, State.cycleStart_audio, State.afterCycleStart, if_true, State.summaryTick_unlisted,
      State.rejoin_status, State.beginCycle_status, State.rejoin_audio, State.beginCycle_audio,
      LaneAudio.cycleStart, hleave, summaryCycles]
    by_cases h : s.status.summaryCount < 249
    · rw [if_pos (by omega), decide_eq_true h, Bool.and_true]
    · rw [if_neg (by omega), decide_eq_false h, Bool.and_false]
  · simp [hmix, Mix.rejoin]
  · simp [hmix, Mix.rejoin, hleave]
  · simp [hmix, Mix.rejoin, hleave]
  · refine ⟨Config.recordOrder s.cycleStarts, ?_⟩
    have hcycle : ((s.beginCycle cs true).1.rejoin .lost).1.summaryTick.1.beat.cycle = cs.cycle := by
      simp [Beat.cycleStart]
    have hunlisted : ((s.beginCycle cs true).1.rejoin .lost).1.audio.unlisted = s.audio.unlisted := by
      simp [LaneAudio.cycleStart, hleave]
    have hstatus : t.status = ((s.beginCycle cs true).1.rejoin .lost).1.summaryTick.1.status.pushAll
        ((s.beginCycle cs true).1.rejoin .lost).1.summaryTick.1.beat.cycle
        (orderGroups (Config.recordOrder s.cycleStarts) ((s.beginCycle cs true).1.rejoin .lost).2
          (s.beginCycle cs true).2 ((s.beginCycle cs true).1.rejoin .lost).1.summaryTick.2) := rfl
    rw [hstatus, hcycle, hoff.summaryTick_records, hunlisted, State.summaryTick_status, State.rejoin_status,
      State.beginCycle_status, State.rejoin_records, State.beginCycle_lanes, State.beginCycle_own,
      State.beginCycle_records, hd]
    rfl
  · simp [t, State.afterCycleStart]
  · simp [t, State.afterCycleStart]
  · simp [t, State.afterCycleStart]

/-- Settles O26. -/
theorem thirdBeatFailureRejoins : Obligations.ThirdBeatFailureRejoins := by
  intro keys s hr hs ha hw hf u
  have hthird : 3 ≤ u.beat.failures + 1 := Nat.succ_le_succ (ge_of_eq hf)
  have hjoined (cs : CycleStart) : (if s.beat.sync = .aligning then u.failAligning cs else u.failJoined cs) =
      ({ u with beat := { u.beat with failures := u.beat.failures + 1 } } : State).cycleStart cs true := by
    rw [if_neg ha, State.failJoined, decide_eq_true hthird]
  have hexec := (execBeatHorizon_waiting hr hs hw keys).trans (congrArg Host.Outcome.next (hjoined _))
  obtain ⟨hoff, htimer, hcycle, hcapture, hdetector, hkeys, harbiter, htx, hcandidate, hquiet, hunlisted, hage,
    hoclk, hframe, hstatus, hreset, hpending, hstarts⟩ :=
    State.cycleStart_rejoins (s := { u with beat := { u.beat with failures := u.beat.failures + 1 } })
      (cs := { age := u.beat.timer - 12816, cycle := s.beat.cycle + 1, displacement := none, own := false
               sync := s.beat.sync, records := [], keys := keys }) hs rfl rfl
  exact ⟨_, hexec, hoff, htimer, hcycle, hcapture, hdetector, hkeys, harbiter, htx, hcandidate, hquiet, hunlisted,
    hage, hoclk, hframe, hstatus, hreset.trans hr, hpending, hstarts⟩

end Sys2Proof.Machine

/-! SUPPORT. Slot receptions: the first start edge in a span, and what is decided by it. -/

namespace Sys2Proof.Machine

/-! ## The first start edge (R36, R37) -/

/-- Position `e` of a list is a start edge: a dominant reading after four recessive ones, of which up to `quiet`
lie before the list; the first `skip` readings count for nothing. -/
def EdgeIn (skip quiet : Nat) (readings : List Bool) (e : Nat) : Prop :=
  readings[e]? = some false ∧ skip ≤ e ∧ ∀ k, 1 ≤ k → k ≤ 4 →
    (k ≤ e - skip → readings[e - k]? = some true) ∧ (e - skip < k → k - (e - skip) ≤ quiet)

/-- `edge` is the least position that satisfies `P`, if there is one. -/
def Least (P : Nat → Prop) (edge : Option Nat) : Prop :=
  match edge with
  | some e => P e ∧ ∀ k, k < e → ¬ P k
  | none => ∀ k, ¬ P k

theorem Least.unique {P : Nat → Prop} {a b : Option Nat} (ha : Least P a) (hb : Least P b) : a = b := by
  cases a with
  | none =>
    cases b with
    | none => rfl
    | some e => exact absurd hb.1 (ha e)
  | some d =>
    cases b with
    | none => exact absurd ha.1 (hb d)
    | some e =>
      have hde : ¬ d < e := fun h => hb.2 d h ha.1
      have hed : ¬ e < d := fun h => ha.2 e h hb.1
      rw [show d = e by omega]

/-- One position on, where position 0 does not satisfy the predicate. -/
theorem Least.succ {P Q : Nat → Prop} {edge : Option Nat} (h0 : ¬ P 0) (hstep : ∀ k, P (k + 1) ↔ Q k)
    (h : Least Q edge) : Least P (edge.map (· + 1)) := by
  cases edge with
  | none =>
    intro k
    cases k with
    | zero => exact h0
    | succ k => exact fun hk => h k ((hstep k).mp hk)
  | some e =>
    refine ⟨(hstep e).mpr h.1, fun k hk => ?_⟩
    cases k with
    | zero => exact h0
    | succ k => exact fun hP => h.2 k (Nat.lt_of_succ_lt_succ hk) ((hstep k).mp hP)

theorem edgeIn_skip (skip quiet : Nat) (b : Bool) (rest : List Bool) (e : Nat) :
    EdgeIn (skip + 1) quiet (b :: rest) (e + 1) ↔ EdgeIn skip quiet rest e := by
  have hsub : e + 1 - (skip + 1) = e - skip := by omega
  unfold EdgeIn
  rw [List.getElem?_cons_succ, Nat.succ_le_succ_iff, hsub]
  refine and_congr_right fun _ => and_congr_right fun _ => forall_congr' fun k => forall_congr' fun _ =>
    forall_congr' fun _ => and_congr_left fun _ => imp_congr_right fun hk => ?_
  rw [show e + 1 - k = (e - k) + 1 by omega, List.getElem?_cons_succ]

theorem edgeIn_true (quiet : Nat) (rest : List Bool) (e : Nat) :
    EdgeIn 0 quiet (true :: rest) (e + 1) ↔ EdgeIn 0 (quiet + 1) rest e := by
  unfold EdgeIn
  rw [List.getElem?_cons_succ]
  simp only [Nat.zero_le, true_and, Nat.sub_zero]
  refine and_congr_right fun _ => forall_congr' fun k => forall_congr' fun _ => forall_congr' fun _ => ?_
  rcases Nat.lt_trichotomy k (e + 1) with hk | hk | hk
  · rw [show e + 1 - k = (e - k) + 1 by omega, List.getElem?_cons_succ]
    exact ⟨fun h => ⟨fun _ => h.1 hk.le, fun _ => by omega⟩,
      fun h => ⟨fun _ => h.1 (by omega), fun _ => by omega⟩⟩
  · subst hk
    simp
  · exact ⟨fun h => ⟨fun _ => by omega, fun _ => by have := h.2 hk; omega⟩,
      fun h => ⟨fun _ => by omega, fun _ => by have := h.2 (by omega); omega⟩⟩

theorem edgeIn_false {quiet : Nat} (rest : List Bool) (e : Nat) :
    EdgeIn 0 quiet (false :: rest) (e + 1) ↔ EdgeIn 0 0 rest e := by
  unfold EdgeIn
  rw [List.getElem?_cons_succ]
  simp only [Nat.zero_le, true_and, Nat.sub_zero]
  refine and_congr_right fun _ => ⟨fun h => ?_, fun h => ?_⟩
  · have he : 4 ≤ e := by
      by_contra hlt
      have := (h (e + 1) (by omega) (by omega)).1 le_rfl
      simp at this
    refine fun k h1 h4 => ⟨fun hk => ?_, fun hk => by omega⟩
    have := (h k h1 h4).1 (by omega)
    rwa [show e + 1 - k = (e - k) + 1 by omega, List.getElem?_cons_succ] at this
  · have he : 4 ≤ e := by
      by_contra hlt
      have := (h 4 (by omega) le_rfl).2 (by omega)
      omega
    refine fun k h1 h4 => ⟨fun hk => ?_, fun hk => by omega⟩
    rw [show e + 1 - k = (e - k) + 1 by omega, List.getElem?_cons_succ]
    exact (h k h1 h4).1 (by omega)

theorem firstEdge_least (skip quiet : Nat) (readings : List Bool) :
    Least (EdgeIn skip quiet readings) (firstEdge skip quiet readings) := by
  induction readings generalizing skip quiet with
  | nil =>
    intro k h
    have := h.1
    simp at this
  | cons b rest ih =>
    cases skip with
    | succ skip =>
      exact Least.succ (fun h => absurd h.2.1 (by omega)) (edgeIn_skip skip quiet b rest) (ih skip quiet)
    | zero =>
      cases b with
      | true => exact Least.succ (fun h => absurd h.1 (by simp)) (edgeIn_true quiet rest) (ih 0 (quiet + 1))
      | false =>
        unfold firstEdge
        by_cases hq : 4 ≤ quiet
        · rw [if_pos (show isStartEdge quiet = true from decide_eq_true hq)]
          exact ⟨⟨rfl, le_rfl, fun k _ h4 => ⟨fun hk => by omega, fun _ => by omega⟩⟩, fun k hk => by omega⟩
        · rw [if_neg (fun h : isStartEdge quiet = true => hq (of_decide_eq_true h))]
          refine Least.succ (fun h => hq ?_) (edgeIn_false rest) (ih 0 0)
          exact (h.2.2 4 (by omega) le_rfl).2 (by omega)

/-- In a span, the edges of the specification are those that the receiver searches for. -/
theorem edgeIn_iff (rx : SlotRx) (opens free span e : Nat) :
    EdgeIn (free - opens) (min rx.before (opens - free)) (rx.readings.take span) e ↔
      e < span ∧ IsEdge rx opens free e := by
  have htake {i : Nat} (h : i < span) : (rx.readings.take span)[i]? = rx.readings[i]? :=
    List.getElem?_take_of_lt h
  unfold EdgeIn IsEdge
  constructor
  · rintro ⟨hfalse, hskip, hquiet⟩
    have he : e < span := by
      by_contra h
      rw [List.getElem?_take_eq_none (by omega)] at hfalse
      cases hfalse
    have h4 := hquiet 4 (by omega) le_rfl
    refine ⟨he, by rwa [htake he] at hfalse, by omega, fun k h1 hk4 => ?_⟩
    obtain ⟨hin, hout⟩ := hquiet k h1 hk4
    refine ⟨fun hk => ?_, fun hk => by omega⟩
    rw [← htake (i := e - k) (by omega)]
    exact hin (by omega)
  · rintro ⟨he, hfalse, hfree, hquiet⟩
    refine ⟨by rwa [htake he], by omega, fun k h1 hk4 => ?_⟩
    obtain ⟨hin, hout⟩ := hquiet k h1 hk4
    refine ⟨fun hk => ?_, fun hk => ?_⟩
    · rw [htake (by omega)]
      exact hin (by omega)
    · omega

theorem slotEdge_eq {rx : SlotRx} {opens free span : Nat} {edge : Option Nat}
    (h : FirstEdge rx opens free span edge) : slotEdge rx opens free span = edge := by
  refine (firstEdge_least _ _ _).unique ?_
  cases edge with
  | none =>
    intro k hk
    obtain ⟨hspan, hedge⟩ := (edgeIn_iff rx opens free span k).mp hk
    exact h k hspan hedge
  | some e =>
    obtain ⟨hspan, hedge, hfirst⟩ := h
    exact ⟨(edgeIn_iff rx opens free span e).mpr ⟨hspan, hedge⟩,
      fun k hk hP => hfirst k hk ((edgeIn_iff rx opens free span k).mp hP).2⟩

end Sys2Proof.Machine

/-! SUPPORT. The own report, its outcome, and the reports received. -/

namespace Sys2Proof.Machine

/-! ## Reports received (R37 to R41, R73) -/

/-- Where the span of a report slot opens (R34). -/
theorem reportStart_sub (slot : Addr) : reportStart slot.val - 8 = 56 + 96 * slot.val := by
  unfold reportStart
  omega

theorem classifySlot_good_iff {α : Type} {rx : SlotRx} {edge : Option Nat} {frame : Nat} {pattern : List Bool}
    {decode : List Bool → Option α} (hpattern : ∀ bits f, decode bits = some f → bits.take 8 = pattern) {f : α} :
    classifySlot rx edge frame pattern decode = .good f ↔
      ∃ e, edge = some e ∧ e ≤ 16 ∧ decode (bitsFrom rx e frame) = some f := by
  cases edge with
  | none => simp [classifySlot]
  | some e =>
    change (if windowLength < e then SlotClass.misplaced
      else if (bitsFrom rx e frame).take 8 ≠ pattern then .corrupt
      else match decode (bitsFrom rx e frame) with | some f => .good f | none => .corrupt) = _ ↔ _
    simp only [Option.some.injEq, exists_eq_left']
    by_cases hlate : windowLength < e
    · rw [if_pos hlate]
      exact ⟨nofun, fun h => absurd h.1 (Nat.not_le.mpr hlate)⟩
    rw [if_neg hlate]
    by_cases hpat : (bitsFrom rx e frame).take 8 ≠ pattern
    · rw [if_pos hpat]
      exact ⟨nofun, fun h => absurd (hpattern _ _ h.2) hpat⟩
    rw [if_neg hpat]
    cases hd : decode (bitsFrom rx e frame) with
    | none => simp
    | some g => simp [show e ≤ 16 from Nat.not_lt.mp hlate]

theorem decodeReport_pattern {bits : List Bool} {r : Report} (h : decodeReport bits = some r) :
    bits.take 8 = reportPattern := by
  unfold decodeReport at h
  split at h
  next hok => exact hok.2.1
  next => cases h

/-- The tests of R41 on the fields of a decoded report. -/
theorem Report.fieldsValid_iff {r : Report} {slot : Addr} {m : Nat} : r.fieldsValid slot m = true ↔
    r.src = slot ∧ (∀ l : Lane, r.held = some l → l.val < m ∧ r.request = .none) ∧
      (r.held = none → r.closing = false ∧ r.idle = false) := by
  unfold Report.fieldsValid
  cases r.held <;> simp

theorem reportClass_good_iff {rx : SlotRx} {slot : Addr} {m free : Nat} {r : Report} :
    reportClass rx slot m free = .good r ↔ ∃ e, reportEdge rx slot free = some e ∧ e ≤ 16 ∧
      decodeReport (bitsFrom rx e 83) = some r ∧ r.src = slot ∧
      (∀ l : Lane, r.held = some l → l.val < m ∧ r.request = .none) ∧
      (r.held = none → r.closing = false ∧ r.idle = false) := by
  have hgood (f : Report) := classifySlot_good_iff (rx := rx) (edge := reportEdge rx slot free) (frame := reportBits)
    (f := f) fun _ _ => decodeReport_pattern
  unfold reportClass
  split
  next f hf =>
    obtain ⟨e, he, hin, hd⟩ := (hgood f).mp hf
    rw [he]
    simp only [Option.some.injEq, exists_eq_left']
    rw [show decodeReport (bitsFrom rx e 83) = some f from hd]
    by_cases hv : f.fieldsValid slot m = true
    · rw [if_pos hv]
      constructor
      · rintro ⟨rfl⟩
        exact ⟨hin, rfl, Report.fieldsValid_iff.mp hv⟩
      · rintro ⟨-, ⟨rfl⟩, -⟩
        rfl
    · rw [if_neg hv]
      refine ⟨nofun, ?_⟩
      rintro ⟨-, ⟨rfl⟩, hfields⟩
      exact absurd (Report.fieldsValid_iff.mpr hfields) hv
  next c hc =>
    refine ⟨fun h => absurd h (hc r), ?_⟩
    rintro ⟨e, he, hin, hd, -⟩
    exact absurd ((hgood r).mpr ⟨e, he, hin, hd⟩) (hc r)

theorem freeAfter_eq (edge : Option Nat) (at' free : Nat) :
    freeAfter edge at' free = if edge = none then free else at' := by
  cases edge <;> rfl

/-- Settles O30. -/
theorem reportSlotEntersOnlyGoodReports : Obligations.ReportSlotEntersOnlyGoodReports := by
  intro slot rx s hr
  refine ⟨fun hspan => congrArg Host.Outcome.next ?_, fun hspan edge hedge => ?_⟩
  · rw [if_neg (by simp [hr]), if_neg (by simp [hspan])]
  · intro good decided u v
    have hfirst : reportEdge rx slot s.line.slotFree = edge := by
      unfold reportEdge
      rw [reportStart_sub]
      exact slotEdge_eq hedge
    have hdecided : reportDecidedAt rx slot s.line.slotFree = decided := by
      unfold reportDecidedAt
      rw [hfirst, reportStart_sub]
      cases edge <;> rfl
    have hexec : exec (.reportSlotDelivered slot rx) s =
        .next ((s.elapseTo decided).receiveReport slot rx) := by
      refine congrArg Host.Outcome.next ?_
      rw [if_neg (by simp [hr]), if_pos hspan, hdecided]
    have hclass (r : Report) : reportClass rx slot s.laneCount s.line.slotFree = .good r ↔ good r := by
      rw [reportClass_good_iff, hfirst]
    have hreceive : (s.elapseTo decided).receiveReport slot rx =
        if slot = s.own then v
        else match reportClass rx slot s.laneCount s.line.slotFree with
          | .good r => { v with census := v.census.enter slot r }
          | _ => v := by
      have hfree : freeAfter (reportEdge rx slot s.line.slotFree) (reportDecidedAt rx slot s.line.slotFree)
          s.line.slotFree = if edge = none then s.line.slotFree else decided := by
        rw [hfirst, hdecided, freeAfter_eq]
      exact congrArg (fun free =>
        let w : State := { u with line := { u.line with
          reportSpans := put u.line.reportSpans slot false, slotFree := free } }
        if slot = s.own then w
        else match reportClass rx slot s.laneCount s.line.slotFree with
          | .good r => { w with census := w.census.enter slot r }
          | _ => w) hfree
    rw [hexec, hreceive]
    refine ⟨fun r hgood hother => congrArg _ ?_, fun h => congrArg _ ?_⟩
    · rw [if_neg hother, (hclass r).mpr hgood]
      rfl
    · by_cases hown : slot = s.own
      · rw [if_pos hown]
      · rw [if_neg hown]
        split
        next r hg => exact absurd ((hclass r).mp hg) (h.resolve_left hown r)
        next => rfl

/-! ## The outcome of the own report (R43, R44, R69) -/

theorem encodeReport_length (r : Report) : (encodeReport r).length = 83 := by
  simp [encodeReport, reportPattern, reportBody, natBits]

/-- Settles O29. -/
theorem reportOutcomeIsKeptWithTheCensus : Obligations.ReportOutcomeIsKeptWithTheCensus := by
  intro read s hr
  refine ⟨fun hnone => congrArg Host.Outcome.next ?_, fun r hsome => ?_⟩
  · rw [if_neg (by simp [hr]), hnone]
  · intro u v
    have huntil : s.line.untilSent .report reportBits = match s.line.tx with
        | some x => if x.kind = .report then 83 - x.sent else 0
        | none => 0 := by
      unfold Line.untilSent
      cases s.line.tx <;> rfl
    have hexec : exec (.reportReadbackOutcome read) s = .next { v with census := { v.census with
        reportTx := none, readback := some (compareReadback (encodeReport r) (natBits 83 read.toNat)) } } := by
      refine congrArg Host.Outcome.next ?_
      rw [if_neg (by simp [hr]), hsome]
      dsimp only
      rw [huntil]
      rfl
    have hcompare := compareReadback_clean (sent := encodeReport r) (read := natBits 83 read.toNat)
      (by rw [encodeReport_length, natBits, List.length_map, List.length_range])
    rw [hexec, hcompare]
    exact ⟨fun h => by rw [if_pos h], fun h => by rw [if_neg h]⟩

/-! ## The own report (R66 to R69, R87 to R89) -/

theorem KeyUnit.muted_iff (k : KeyUnit) :
    k.muted = true ↔ k.muteLatch = true ∨ (k.straps.role = .auto ∧ k.keyA.pressed = true) := by
  simp [KeyUnit.muted, KeyUnit.cough]

/-- The own request, row by row (Table 6-3). -/
theorem State.requestNow_rows (s : State) :
    let speaking := s.detector.outState = .speech ∨ s.detector.outState = .hangover
    let shut := s.beat.sync ≠ .locked ∨ s.role = .listen ∨
      (s.keys.muteLatch = true ∨ (s.role = .auto ∧ s.keys.keyA.pressed = true)) ∨ s.capture.mic = .fault ∨
      s.lanes.table.laneOf s.own ≠ none
    (shut → s.requestNow = .none) ∧
    (¬ shut → s.role = .auto → s.requestNow = if speaking then .claim else .none) ∧
    (¬ shut → s.role = .chair → s.requestNow = if speaking then .priority else .none) ∧
    (¬ shut → s.role = .keyed → s.requestNow = if s.keys.keyA.pressed = true then .priority else .none) := by
  intro speaking shut
  have hopen (h : ¬ shut) : s.requestNow =
      if s.role = .auto ∧ speaking then .claim
      else if s.role = .chair ∧ speaking then .priority
      else if s.keys.talkHeld then .priority
      else .none := by
    simp only [shut, not_or, not_not] at h
    obtain ⟨hsync, hrole, hmuted, hmic, hlane⟩ := h
    have hmuted : ¬ s.keys.muted = true := by
      rw [KeyUnit.muted_iff, not_or]
      exact hmuted
    unfold State.requestNow
    rw [if_neg (not_not.mpr hsync), if_neg hrole, if_neg hmuted, if_neg hmic, if_neg (by simp [hlane])]
  have htalk : s.keys.talkHeld = true ↔ s.role = .keyed ∧ s.keys.keyA.pressed = true := by
    simp [KeyUnit.talkHeld, State.role]
  refine ⟨fun h => ?_, fun h hrole => ?_, fun h hrole => ?_, fun h hrole => ?_⟩
  · have hmuted := KeyUnit.muted_iff s.keys
    rcases h with h | h | h | h | h
    · simp [State.requestNow, h]
    · simp [State.requestNow, h]
    · simp [State.requestNow, hmuted.mpr h]
    · simp [State.requestNow, h]
    · simp [State.requestNow, Option.isSome_iff_ne_none.mpr h]
  · rw [hopen h]
    simp [hrole, htalk]
  · rw [hopen h]
    simp [hrole, htalk]
  · rw [hopen h]
    simp [hrole, htalk]

theorem waitAgeAfter_rows (old new : Request) (wait : Nat) :
    (new = .none → waitAgeAfter old new wait = 0) ∧
    (new ≠ .none → new = old → waitAgeAfter old new wait = min 255 (wait + 1)) ∧
    (new ≠ .none → new ≠ old → waitAgeAfter old new wait = 1) := by
  unfold waitAgeAfter
  refine ⟨fun h => if_pos h, fun h ho => ?_, fun h ho => ?_⟩ <;> rw [if_neg h]
  · exact if_pos ho
  · exact if_neg ho

/-- The age field of the own report (Table 6-4). -/
theorem State.reportAge_eq (s : State) : s.reportAge =
    if s.lanes.request ≠ .none then s.lanes.waitAge
    else match s.lanes.table.laneOf s.own with
      | none => 0
      | some l => match s.lanes.table[l] with
        | .free => 0
        | .granted _ _ _ _ => 1
        | .held _ _ age _ _ => min 255 (age + 1) := by
  unfold State.reportAge
  refine ite_congr rfl (fun _ => rfl) fun _ => ?_
  split
  next l hl => 
    rw [hl]
    dsimp only
    split <;> simp_all [satSucc]
  next hl => rw [hl]

theorem State.reportAge_le {s : State} (h : s.lanes.waitAge ≤ 255) : s.reportAge ≤ 255 := by
  rw [State.reportAge_eq]
  split
  · exact h
  · split
    · omega
    · split <;> omega

theorem State.ownReport_age {s : State} (h : s.lanes.waitAge ≤ 255) : s.ownReport.age.toNat = s.reportAge := by
  change (BitVec.ofNat 8 s.reportAge).toNat = _
  rw [BitVec.toNat_ofNat, Nat.mod_eq_of_lt (Nat.lt_of_le_of_lt (State.reportAge_le h) (by norm_num))]

/-- A flag of the own report that is clear in ENTERING (R57, R68). -/
theorem State.ownReport_flag {sync : SyncState} (h : sync = .entering ∨ sync = .locked) (flag : Bool) :
    (flag && decide (sync ≠ .entering)) = true ↔ flag = true ∧ sync = .locked := by
  rcases h with rfl | rfl <;> simp

/-- Settles O28. -/
theorem ownReportSlotAssemblesTheReport : Obligations.OwnReportSlotAssemblesTheReport := by
  intro s hr u muted speaking held shut
  have hexec : exec .ownReportSlotStart s = .next u.ownReportSlot := by
    refine congrArg Host.Outcome.next ?_
    rw [if_neg (by simp [hr])]
    rfl
  have hreports : u.evaluateRequest.1.beat.sync.reports = true ↔ s.beat.sync = .entering ∨ s.beat.sync = .locked := by
    change s.beat.sync.reports = true ↔ _
    cases s.beat.sync <;> decide
  obtain ⟨hshut, hauto, hchair, hkeyed⟩ := s.requestNow_rows
  obtain ⟨hnone, hsame, hnew⟩ := waitAgeAfter_rows s.lanes.request s.requestNow s.lanes.waitAge
  refine ⟨_, s.requestNow, waitAgeAfter s.lanes.request s.requestNow s.lanes.waitAge, hexec, hshut, hauto, hchair,
    hkeyed, hnone, hsame, hnew, ?_, ?_, fun hentering hlocked => ?_, fun hsync => ?_, ?_⟩ <;>
    unfold State.ownReportSlot
  · split <;> rfl
  · split <;> rfl
  · rw [if_neg fun h => (hreports.mp h).elim hentering hlocked]
    exact ⟨rfl, rfl⟩
  · rw [if_pos (hreports.mpr hsync)]
    refine ⟨u.evaluateRequest.1.ownReport, rfl, rfl, ?_, ?_, rfl, rfl, rfl, ?_, rfl, ?_, ?_, ?_, ?_, rfl, rfl, rfl, rfl⟩
    · exact State.ownReport_flag hsync _
    · exact State.ownReport_flag hsync _
    · exact (State.ownReport_age waitAgeAfter_le).trans (State.reportAge_eq _)
    · exact Bool.and_eq_true_iff.trans (and_congr Option.isSome_iff_ne_none Option.isSome_iff_ne_none)
    · exact Bool.and_eq_true_iff.trans (and_congr_left' Option.isSome_iff_ne_none)
    · exact KeyUnit.muted_iff s.keys
    · exact Bool.and_eq_true_iff.trans (and_congr_left' decide_eq_true_iff)
  · split <;> rfl

end Sys2Proof.Machine

/-! SUPPORT. The keys and the status port. -/

namespace Sys2Proof.Machine

/-! ## Keys (R153) -/

theorem Key.sample_agrees (k : Key) : k.sample k.pressed = { k with count := 0 } := if_pos rfl

/-- A sample below the fourth differing one keeps the debounced state. -/
theorem Key.sample_below {k : Key} (h : k.count < 4) (b : Bool) :
    (k.sample b).pressed = k.pressed ∧ (k.sample b).count ≤ k.count + 1 := by
  unfold Key.sample
  split
  · exact ⟨rfl, Nat.zero_le _⟩
  · exact ⟨rfl, le_rfl⟩

theorem Key.samples_keep {k : Key} {samples : List Bool} (h : k.count + samples.length < 5) :
    (samples.foldl (fun k b => k.sample b) k).pressed = k.pressed := by
  induction samples generalizing k with
  | nil => rfl
  | cons b rest ih =>
    rw [List.length_cons] at h
    obtain ⟨hpressed, hcount⟩ := Key.sample_below (show k.count < 4 by omega) b
    rw [List.foldl_cons, ih (by omega), hpressed]

theorem Key.samples_change {k : Key} {samples : List Bool} (h : k.count + samples.length = 5)
    (hk : k.count < 5) (hdiffer : ∀ b ∈ samples, b = !k.pressed) :
    samples.foldl (fun k b => k.sample b) k = { pressed := !k.pressed, count := 0 } := by
  induction samples generalizing k with
  | nil => simp at h; omega
  | cons b rest ih =>
    rw [List.length_cons] at h
    have hb : b = !k.pressed := hdiffer b List.mem_cons_self
    have hne : b ≠ k.pressed := by rw [hb]; exact Bool.not_ne_self k.pressed
    rw [List.foldl_cons]
    by_cases hc : k.count < 4
    · have hstep : k.sample b = { k with count := k.count + 1 } := by
        unfold Key.sample
        rw [if_neg hne, if_pos hc]
      rw [hstep]
      exact ih (show k.count + 1 + rest.length = 5 by omega) (show k.count + 1 < 5 by omega)
        fun c hmem => hdiffer c (List.mem_cons_of_mem b hmem)
    · have hlast : rest = [] := List.length_eq_zero_iff.mp (by omega)
      unfold Key.sample
      rw [if_neg hne, if_neg hc, hlast, hb]
      rfl

/-- Settles O51. -/
theorem keyChangesAtTheFifthSample : Obligations.KeyChangesAtTheFifthSample := by
  intro k samples hk
  refine ⟨fun h => Key.samples_keep (by omega), fun h hall => Key.samples_change (by omega) (by omega) hall,
    fun h ⟨b, hb, heq⟩ => ?_, fun j b hb => by rw [hb, Key.sample_agrees]⟩
  obtain ⟨front, back, rfl⟩ := List.append_of_mem hb
  rw [List.length_append, List.length_cons] at h
  have hfront := Key.samples_keep (k := k) (samples := front) (by omega)
  rw [List.foldl_append, List.foldl_cons, heq, ← hfront, Key.sample_agrees]
  exact Key.samples_keep (show 0 + back.length < 5 by omega)

/-! ## The status queue (R164, R166, R167) -/

theorem coalesce_first {r q : Record} {front back : List Record}
    (hfront : ∀ x ∈ front, sameKey x.body r.body = false) (hkey : sameKey q.body r.body = true) :
    coalesce r (front ++ q :: back) =
      some (front ++ { cycle := r.cycle, body := mergeBody q.body r.body } :: back) := by
  induction front with
  | nil =>
    rw [List.nil_append, coalesce, if_pos hkey]
    rfl
  | cons x rest ih =>
    rw [List.forall_mem_cons] at hfront
    rw [List.cons_append, coalesce, if_neg (by simp [hfront.1]), ih hfront.2]
    rfl

theorem mergeBody_of_not_summary {queued new : RecordBody} (h : ∀ o pr h u, new ≠ .summary o pr h u) :
    mergeBody queued new = new := by
  unfold mergeBody
  split
  next => exact absurd rfl (h _ _ _ _)
  next => rfl

/-- Settles O53. -/
theorem recordCoalescesJoinsOrIsLost : Obligations.RecordCoalescesJoinsOrIsLost := by
  refine ⟨fun x y => ?_, fun p r => ⟨fun hnone hlen => ?_, fun hnone hlen => ?_,
    fun front back q hq hfront hkey => ?_⟩⟩
  · -- the constructors differ, or the keys are compared
    cases x <;> cases y <;> simp [sameKey]
    all_goals exact eq_comm
  · unfold StatusPort.push
    rw [(coalesce_eq_none r p.queue).mpr hnone]
    exact if_pos hlen
  · unfold StatusPort.push
    rw [(coalesce_eq_none r p.queue).mpr hnone]
    exact if_neg (Nat.not_lt.mpr hlen)
  · refine ⟨mergeBody q.body r.body, ?_, mergeBody_of_not_summary,
      fun o pr h u o' pr' h' v hqueued hnew => by rw [hqueued, hnew]; rfl⟩
    unfold StatusPort.push
    rw [hq, coalesce_first hfront hkey]

/-! ## The bit clock (R161) -/

theorem bitPeriodStart_eq (p : Nat) :
    bitPeriodStart p = 320 * (p / 3) + (#v[0, 107, 214] : Vector Nat 3)[Fin.ofNat 3 p] := by
  have hoffset : ∀ q : Fin 3, (if q.val = 0 then 0 else if q.val = 1 then 107 else 214) =
      (#v[0, 107, 214] : Vector Nat 3)[q] := by decide
  exact congrArg (320 * (p / 3) + ·) (hoffset (Fin.ofNat 3 p))

/-- A bit period has started at a crystal period when it is no later than the one that runs there. -/
theorem bitPeriodStart_le_iff (p t : Nat) : bitPeriodStart p ≤ t ↔ p ≤ bitPeriodOf t := by
  unfold bitPeriodStart bitPeriodOf
  split_ifs <;> omega

/-- A bit period starts from now on when it is no sooner than the next one. -/
theorem le_bitPeriodStart_iff (p t : Nat) : t ≤ bitPeriodStart p ↔ nextBitPeriod t ≤ p := by
  unfold nextBitPeriod onBitBoundary bitPeriodStart bitPeriodOf
  simp only [Bool.or_eq_true, beq_iff_eq]
  split_ifs <;> omega

theorem bitPeriodOf_eq_iff (p t : Nat) : bitPeriodOf t = p ↔ bitPeriodStart p ≤ t ∧ t < bitPeriodStart (p + 1) := by
  rw [bitPeriodStart_le_iff, ← not_le, bitPeriodStart_le_iff]
  omega

/-! ## Records as sent (R161, R162) -/

theorem characterBits_length (b : BitVec 8) : (characterBits b).length = 10 := by simp [characterBits]

theorem characterBits_get (b : BitVec 8) {i : Nat} (hi : i < 10) : (characterBits b)[i]? =
    some (if i = 0 then false else if i = 9 then true else b.getLsbD (i - 1)) := by
  unfold characterBits
  interval_cases i <;> simp

/-- Bit `i` of character `k` among the characters sent. -/
theorem statusBits_get {bytes : List (BitVec 8)} {k i : Nat} {b : BitVec 8} (hb : bytes[k]? = some b)
    (hi : i < 10) : (statusBits bytes)[10 * k + i]? =
      some (if i = 0 then false else if i = 9 then true else b.getLsbD (i - 1)) := by
  unfold statusBits
  induction bytes generalizing k with
  | nil => simp at hb
  | cons c rest ih =>
    rw [List.flatMap_cons]
    cases k with
    | zero =>
      obtain rfl : c = b := by simpa using hb
      rw [List.getElem?_append_left (by rw [characterBits_length]; omega), Nat.mul_zero, Nat.zero_add]
      exact characterBits_get c hi
    | succ k =>
      rw [List.getElem?_append_right (by rw [characterBits_length]; omega), characterBits_length,
        show 10 * (k + 1) + i - 10 = 10 * k + i by omega]
      exact ih (by simpa using hb)

theorem foldl_add_eq (bytes : List (BitVec 8)) (x : BitVec 8) :
    bytes.foldl (· + ·) x = x + bytes.foldl (· + ·) 0#8 := by
  induction bytes generalizing x with
  | nil => simp
  | cons b rest ih =>
    rw [List.foldl_cons, List.foldl_cons, ih (x + b), ih (0#8 + b), BitVec.zero_add, BitVec.add_assoc]

theorem Record.bytes_sum (r : Record) (overrun : Bool) : (r.bytes overrun).foldl (· + ·) 0#8 = 0#8 := by
  unfold Record.bytes checksum
  rw [List.foldl_append, List.foldl_cons, List.foldl_nil]
  exact add_neg_cancel _

theorem Record.bytes_payload (r : Record) (overrun : Bool) :
    ((r.bytes overrun).drop 5).dropLast = r.body.payload := by
  simp [Record.bytes, Record.bytesBeforeChecksum, highLow]

theorem StatusPort.startTx_of_cons {p : StatusPort} {r : Record} {rest : List Record} (h : p.queue = r :: rest)
    (start : Nat) : p.startTx start = { p with
      queue := rest
      tx := some { record := r, overrun := p.overrun, bytes := r.bytes p.overrun, startBit := start }
      overrun := false } := by
  unfold StatusPort.startTx
  rw [h]

/-- Settles O52. -/
theorem statusPortSendsTheHeadRecord : Obligations.StatusPortSendsTheHeadRecord := by
  unfold Obligations.StatusPortSendsTheHeadRecord
  intro start
  have hstart (p : Nat) : start p = bitPeriodStart p := (bitPeriodStart_eq p).symm
  refine ⟨fun s hr => ⟨fun r rest htx hq => ?_, fun h => congrArg Host.Outcome.next ?_, fun x htx => ?_,
    fun htx => congrArg Host.Outcome.next ?_⟩, fun s x htx => ⟨fun h => ?_, fun k i b hb hi hlow hhigh => ?_⟩⟩
  · refine ⟨{ record := r, overrun := s.status.overrun, bytes := r.bytes s.status.overrun
              startBit := s.status.nextStart }, rfl, rfl, rfl, ?_, r.bytes_sum _, fun p => ?_, ?_⟩
    · exact r.bytes_payload _
    · simp only [hstart, le_bitPeriodStart_iff, StatusPort.nextStart, Nat.max_le]
      exact ⟨fun h => ⟨p, le_rfl, h⟩, fun ⟨q, hqp, hfree, hnext⟩ => ⟨hfree.trans hqp, hnext.trans hqp⟩⟩
    · refine congrArg Host.Outcome.next ?_
      rw [if_neg (by simp [hr]), if_neg (by simp [htx, hq])]
      dsimp only
      rw [hstart, StatusPort.startTx_of_cons
        (p := (s.elapse (s.status.untilBitPeriod s.status.nextStart)).status) hq]
      rfl
  · rw [if_neg (by simp [hr]), if_pos]
    rcases h with h | h
    · exact .inl (Option.isSome_iff_ne_none.mpr h)
    · exact .inr h
  · refine congrArg Host.Outcome.next ?_
    rw [if_neg (by simp [hr]), htx]
    dsimp only
    rw [hstart]
    rfl
  · rw [if_neg (by simp [hr]), htx]
  · unfold State.statusHigh
    rw [htx]
    refine if_neg ?_
    rwa [← bitPeriodStart_le_iff, ← hstart, not_le]
  · rw [hstart] at hlow hhigh
    have hperiod : bitPeriodOf s.status.bitClock = x.startBit + 10 * k + i :=
      (bitPeriodOf_eq_iff _ _).mpr ⟨hlow, hhigh⟩
    unfold State.statusHigh
    rw [htx]
    dsimp only
    rw [hperiod, if_pos (by omega), show x.startBit + 10 * k + i - x.startBit = 10 * k + i by omega,
      List.getD_eq_getElem?_getD, statusBits_get hb hi]
    rfl

end Sys2Proof.Machine

/-! SUPPORT. The mix computation, and the output port. -/

namespace Sys2Proof.Machine

/-! ## The weighted sums (R141, R142) -/

theorem Ramp.weight_eq (r : Ramp) (i : Fin 64) : ((r.weight i.val : Nat) : Int) = match r with
    | .unity => (64 : Int)
    | .rising => i.val + 1
    | .falling => 64 - i.val
    | .zero => 0 := by
  cases r with
  | falling => simp only [Ramp.weight]; omega
  | unity => rfl
  | rising => rfl
  | zero => rfl

theorem vector_four (v : Vector α 4) : v.toList = [v[(0 : Fin 4)], v[(1 : Fin 4)], v[(2 : Fin 4)], v[(3 : Fin 4)]] := by
  refine List.ext_getElem (by simp) fun i h1 h2 => ?_
  have hi : i < 4 := by simpa using h1
  interval_cases i <;> simp

theorem weightedSum_eq (set : ContributionSet) (keep : Contribution → Bool) (i : Fin 64) :
    weightedSum set keep i = ∑ l : Lane,
      if keep set[l] then set[l].samples[i].toInt * ((set[l].ramp.weight i.val : Nat) : Int) else 0 := by
  unfold weightedSum
  rw [vector_four, Fin.sum_univ_four]
  simp only [List.foldl_cons, List.foldl_nil]
  split_ifs <;> ring

theorem openCount_eq (set : ContributionSet) :
    set.openCount = (Finset.univ.filter fun l : Lane => set[l].isOpen = true).card := by
  unfold ContributionSet.openCount
  rw [vector_four, Finset.card_filter, Fin.sum_univ_four]
  simp only [List.countP_cons, List.countP_nil]
  ring

theorem openCount_le (set : ContributionSet) : set.openCount ≤ 4 := by
  rw [openCount_eq]
  exact (Finset.card_filter_le _ _).trans (by simp)

theorem mixGain_eq {n : Nat} (h : n ≤ 4) :
    ((mixGain n : Nat) : Int) = (#v[0, 32767, 23170, 18919, 16384] : Vector Int 5)[Fin.ofNat 5 n] := by
  interval_cases n <;> rfl

/-- A mix value is the weighted sum by the gain, rounded; the gain is 0 when no lane is open (R141). -/
theorem mixValue_isRounded (set : ContributionSet) (keep : Contribution → Bool) (i : Fin 64) :
    IsRounded (weightedSum set keep i * (mixGain set.openCount : Nat)) 2097152 (mixValue set keep i) := by
  unfold mixValue
  split
  next h =>
    rw [h, show (mixGain 0 : Int) = 0 from rfl, Int.mul_zero]
    exact ⟨by decide, by decide⟩
  next => exact roundDiv_isRounded _ (by norm_num)

theorem mixSaturates_iff (set : ContributionSet) : mixSaturates set = true ↔
    ∃ i, 32767 < fullMix set i ∨ fullMix set i < -32768 ∨ 32767 < mixMinus set i ∨ mixMinus set i < -32768 := by
  simp [mixSaturates, saturates_iff, or_assoc]

/-- Settles O49. -/
theorem mixIsTheScaledWeightedSum : Obligations.MixIsTheScaledWeightedSum := by
  have hexec {s : State} (hr : s.inReset = false) : exec .mixFormationEnd s =
      .next (({ s with mix := s.mix.endFormation.1 } : State).raise (mixRecords s.mix.endFormation.2)) :=
    congrArg Host.Outcome.next (if_neg (by simp [hr]))
  refine ⟨fun s hr hleft hplaying hnext => ?_, fun s set hr hset => ?_⟩
  · obtain ⟨hformed, -, -, -, hnothing⟩ := s.mix.endFormation_spec
    rw [hexec hr, hformed, hnothing hleft hplaying hnext, hleft, hplaying, hnext]
    rfl
  · obtain ⟨rest, hset⟩ := hset
    intro weight count gain full minus
    obtain ⟨hformed, hleft, hplaying, hnext, -⟩ := s.mix.endFormation_spec
    rw [hset, List.head?_cons] at hformed
    have hweight (c : Contribution) (i : Fin 64) : ((c.ramp.weight i.val : Nat) : Int) = weight c i :=
      c.ramp.weight_eq i
    have hgain : ((mixGain set.openCount : Nat) : Int) = gain := by
      rw [mixGain_eq (openCount_le set), openCount_eq]
    have hfull (i : Fin 64) : weightedSum set (fun _ => true) i = full i := by
      rw [weightedSum_eq]
      simp only [if_true, hweight]
      rfl
    have hminus (i : Fin 64) : weightedSum set (fun c => !c.own) i = minus i := by
      rw [weightedSum_eq]
      refine Finset.sum_congr rfl fun l _ => ?_
      rw [hweight]
      cases set[l].own <;> rfl
    refine ⟨_, formMix set, fullMix set, mixMinus set, hexec hr, fun i => ⟨?_, ?_, ?_, ?_⟩, hleft, fun hl hp => ?_,
      fun hl hp => ?_, fun h => ?_, fun h => ?_, rfl⟩
    · rw [← hfull, ← hgain]
      exact mixValue_isRounded set _ i
    · rw [formMix]
      simpa using saturate_isSaturated (fullMix set i)
    · rw [← hminus, ← hgain]
      exact mixValue_isRounded set _ i
    · rw [formMix]
      simpa using saturate_isSaturated (mixMinus set i)
    · obtain ⟨f, hp⟩ := Option.ne_none_iff_exists'.mp hp
      have hf : f.set = set := by simpa [hl, hp] using congrArg List.head? hset
      rw [← hf]
      exact hplaying f hl hp
    · cases hn : s.mix.formingNext with
      | none => simp [hl, hp, hn] at hset
      | some f =>
        have hf : f.set = set := by simpa [hl, hp, hn] using congrArg List.head? hset
        rw [← hf]
        exact hnext f hl hp hn
    · change s.status.pushAll s.beat.cycle (mixRecords s.mix.endFormation.2) = _
      rw [hformed, mixRecords, if_pos ((mixSaturates_iff set).mpr h)]
      rfl
    · change s.status.pushAll s.beat.cycle (mixRecords s.mix.endFormation.2) = _
      rw [hformed, mixRecords, if_neg]
      · rfl
      · rw [mixSaturates_iff]
        rintro ⟨i, hi⟩
        have := h i
        omega

/-! ## Output frames (R140, R145, R146) -/

/-- The sample of a channel slot, with the formation's times written out (R140). -/
theorem Mix.slotSample_eq (channel : Buffer → Frame) (later : Nat) (k : Fin 64) (m : Mix) :
    m.slotSample channel later k = if m.closed = true ∧ k = 0 then 0 else match m.formingPlaying with
      | none => (channel m.playing)[k]
      | some f => if 64 ≤ f.age + later ∨
            ∑ j ∈ Finset.range (k.val + 1), Config.formingTime f.number j ≤ f.age + later
          then (channel (formMix f.set))[k] else 0 := by
  unfold Mix.slotSample
  refine ite_congr rfl (fun _ => rfl) fun _ => ?_
  cases m.formingPlaying with
  | none => rfl
  | some f => exact if_congr (f.formed_iff later k) rfl rfl

/-- A sample is formed no sooner than those before it, and stays formed. -/
theorem Formation.formed_mono (f : Formation) {n m : Nat} {j k : Fin 64} (hjk : j ≤ k) (hnm : n ≤ m)
    (h : f.formed n k = true) : f.formed m j = true := by
  rw [Formation.formed_iff] at h ⊢
  have hsum : ∑ i ∈ Finset.range (j.val + 1), Config.formingTime f.number i ≤
      ∑ i ∈ Finset.range (k.val + 1), Config.formingTime f.number i :=
    Finset.sum_le_sum_of_subset (Finset.range_mono (Nat.succ_le_succ hjk))
  omega

/-- The next falling edge of OCLK is at most two bit times ahead (R146). -/
theorem toFallingEdge_spec {oclk : Nat} (hmod : oclk % 4 = 0) :
    toFallingEdge oclk < 3 ∧ (oclk + 4 * toFallingEdge oclk) % 12 = 0 := by
  unfold toFallingEdge
  omega

/-- Settles O50. -/
theorem outputFrameCarriesThePlayingBuffer : Obligations.OutputFrameCarriesThePlayingBuffer := by
  unfold Obligations.OutputFrameCarriesThePlayingBuffer
  intro sample
  have hsample (channel : Buffer → Frame) (later : Nat) (k : Fin 64) (m : Mix) :
      sample channel later k m = m.slotSample channel later k := (m.slotSample_eq channel later k).symm
  refine ⟨fun f n m j k hjk hnm => ⟨f.formed_mono hjk hnm, fun h => (f.formed_iff n k).mpr (.inl h)⟩,
    fun k s hr _ hmod => ?_, fun s f n hf hright hage => ?_, fun s f x hr hf hx => ⟨?_, fun i hlo hhi => ?_⟩⟩
  · have hedge := toFallingEdge_spec
      (show (s.mix.oclk + 4 * (192 * k.val - s.mix.refAge)) % 12 % 4 = 0 by omega)
    generalize hn : toFallingEdge ((s.mix.oclk + 4 * (192 * k.val - s.mix.refAge)) % 12) = n at hedge
    have hexec : exec (.outputFrameStart k) s = .next
        { s.elapse (192 * k.val - s.mix.refAge + n) with
          mix := (s.elapse (192 * k.val - s.mix.refAge + n)).mix.startFrame k } := by
      rw [← State.elapse_elapse, ← hn]
      exact congrArg Host.Outcome.next (if_neg (by simp [hr]))
    refine ⟨_, n, hedge.1, hexec, ?_, ?_⟩
    · change (s.mix.oclk + 4 * (192 * k.val - s.mix.refAge + n)) % 12 = 0
      omega
    · rw [hsample]
      rfl
  · have hframe : (s.elapse n).mix.frame = some { f with age := f.age + n, right := s.mix.rightAfter n f } := by
      change s.mix.frame.map _ = _
      rw [hf]
      rfl
    have hafter : s.mix.rightAfter n f = if 96 ≤ f.age + n then
        some (s.mix.slotSample Buffer.right (96 - f.age) f.position) else none := by
      unfold Mix.rightAfter
      rw [hright]
      rfl
    rw [hframe, hafter, hsample]
    refine ⟨fun h => ?_, fun h => by rw [if_pos h]⟩
    rw [if_neg (by omega), ← hright]
  · unfold State.owsHigh OutFrame.period
    rw [hf, hr]
    simp only [Bool.not_false, Bool.true_and, decide_eq_true_iff]
    omega
  · have hperiod : f.period = i := by
      unfold OutFrame.period
      omega
    unfold State.odatHigh
    rw [hf, hr]
    simp only [hperiod, Bool.not_false, Bool.true_and]
    refine ite_congr rfl (fun _ => rfl) fun _ => ite_congr rfl (fun hright => ?_) fun _ => rfl
    rw [hx.resolve_right (by omega)]
    rfl

end Sys2Proof.Machine

/-! SUPPORT. The own lane frame and its readback, and the lane frames received. -/

namespace Sys2Proof.Machine

/-! ## The first differing bit (R43, R44) -/

theorem firstDiff_cons (x y : Bool) (sent read : List Bool) : firstDiff (x :: sent) (y :: read) =
    if x = y then (firstDiff sent read).map (· + 1) else some 0 := by
  unfold firstDiff
  rw [List.zip_cons_cons, List.findIdx?_cons]
  by_cases h : x = y <;> simp [h]

theorem firstDiff_isNone_iff (sent read : List Bool) : firstDiff sent read = none ↔
    ∀ i, i < sent.length → i < read.length → read[i]? = sent[i]? := by
  induction sent generalizing read with
  | nil => simp [firstDiff]
  | cons x sent ih =>
    cases read with
    | nil => simp [firstDiff]
    | cons y read =>
      rw [firstDiff_cons]
      by_cases h : x = y
      · rw [if_pos h, Option.map_eq_none_iff, ih]
        refine ⟨fun hall i hs hr => ?_, fun hall i hs hr => ?_⟩
        · cases i with
          | zero => simp [h]
          | succ i => simpa using hall i (by simpa using hs) (by simpa using hr)
        · simpa using hall (i + 1) (by simpa using hs) (by simpa using hr)
      · rw [if_neg h]
        refine ⟨nofun, fun hall => absurd (hall 0 (by simp) (by simp)) ?_⟩
        simpa using Ne.symm h

theorem firstDiff_of_first {sent read : List Bool} (hlen : sent.length = read.length) {i : Nat}
    (hdiff : read[i]? ≠ sent[i]?) (hbefore : ∀ j, j < i → read[j]? = sent[j]?) :
    firstDiff sent read = some i := by
  induction sent generalizing read i with
  | nil =>
    obtain rfl : read = [] := List.length_eq_zero_iff.mp hlen.symm
    exact absurd rfl hdiff
  | cons x sent ih =>
    cases read with
    | nil => simp at hlen
    | cons y read =>
      rw [firstDiff_cons]
      cases i with
      | zero => rw [if_neg (by simpa [eq_comm] using hdiff)]
      | succ i =>
        have hxy : x = y := by simpa [eq_comm] using hbefore 0 (Nat.succ_pos i)
        rw [if_pos hxy, ih (by simpa using hlen) (by simpa using hdiff) fun j hj => by
          simpa using hbefore (j + 1) (Nat.succ_lt_succ hj)]
        rfl

theorem compareReadback_eq (sent read : List Bool) {clean : Prop} [Decidable clean]
    (h : firstDiff sent read = none ↔ clean) :
    compareReadback sent read = if clean then .clean else .collision := by
  unfold compareReadback
  by_cases hclean : clean
  · rw [if_pos hclean, h.mpr hclean]
    rfl
  · rw [if_neg hclean, if_pos (Option.isSome_iff_ne_none.mpr (mt h.mp hclean))]

theorem laneFrameBits_length (f : LaneFrame) : (encodeLane f).length = 1064 := by
  simp [encodeLane, lanePattern, laneBody, sampleBits, natBits, List.length_flatMap]

/-! ## Counting the outcome (R123, R124) -/

/-- What an outcome of the own lane frame does. -/
theorem State.takeLaneOutcome_rows (v : State) (o : Readback) :
    (v.lanes.table.laneOf v.own = none → v.takeLaneOutcome o = v) ∧
    ∀ l, v.lanes.table.laneOf v.own = some l →
      (o = .clean → v.takeLaneOutcome o = { v with lanes := { v.lanes with laneCollisions := 0 } }) ∧
      (o = .collision → v.lanes.laneCollisions = 0 →
        v.takeLaneOutcome o = { v with lanes := { v.lanes with laneCollisions := 1 } }) ∧
      (o = .collision → v.lanes.laneCollisions = 1 → v.takeLaneOutcome o =
        { v.dropLaneTx with
          lanes := { v.lanes with
            table := v.lanes.table.without v.own
            slotCopy := v.lanes.slotCopy.without v.own
            releasePending := none
            idleHold := false
            digest := (v.lanes.table.without v.own).digest
            laneCollisions := 0
            cutInCycle := true }
          status := v.status.push { cycle := v.beat.cycle, body := .gate l false .conflict } }) := by
  unfold State.takeLaneOutcome
  refine ⟨fun h => if_neg (by simp [h]), fun l hl => ?_⟩
  rw [if_pos (by simp [hl])]
  refine ⟨fun ho => by subst ho; rfl, fun ho hc => ?_, fun ho hc => ?_⟩ <;> subst ho <;>
    unfold State.countLaneOutcome <;> dsimp only
  · rw [if_pos (by omega), hc]
    rfl
  · rw [if_neg (by omega), State.cutOwnLane_of_owner hl]
    rfl

theorem laneReadback_length (read : BitVec 1064) : (readBits read).length = 1064 := by
  simp [readBits, natBits]

/-- A running frame ends after its colliding bit, else after its last (R44). -/
theorem laneBitsSent_spec {read : BitVec 1064} {f : LaneFrame} {n : Nat}
    (h : (n = 1064 ∧ natBits 1064 read.toNat = encodeLane f) ∨
      (n ≤ 1064 ∧ ∃ i, n = i + 1 ∧ (natBits 1064 read.toNat)[i]? ≠ (encodeLane f)[i]? ∧
        ∀ j, j < i → (natBits 1064 read.toNat)[j]? = (encodeLane f)[j]?)) :
    laneBitsSent (firstDiff (encodeLane f) (readBits read)) = n ∧
      (firstDiff (encodeLane f) (readBits read) = none ↔
        ∀ i, i < ((encodeLane f).take n).length → i < 1064 →
          (natBits 1064 read.toNat)[i]? = ((encodeLane f).take n)[i]?) := by
  have hlen : (encodeLane f).length = (readBits read).length := by
    rw [laneFrameBits_length, laneReadback_length]
  rcases h with ⟨rfl, heq⟩ | ⟨hn, i, rfl, hdiff, hbefore⟩
  · have hnone : firstDiff (encodeLane f) (readBits read) = none :=
      (firstDiff_eq_none hlen).mpr heq
    have hall : (encodeLane f).take 1064 = encodeLane f :=
      List.take_of_length_le (laneFrameBits_length f).le
    rw [hnone, hall, heq]
    exact ⟨rfl, by simp⟩
  · have hfirst : firstDiff (encodeLane f) (readBits read) = some i := firstDiff_of_first hlen hdiff hbefore
    rw [hfirst]
    refine ⟨rfl, nofun, fun hall => absurd (hall i ?_ (by omega)) ?_⟩
    · rw [List.length_take, laneFrameBits_length]
      omega
    · rw [List.getElem?_take_of_lt (Nat.lt_succ_self i)]
      exact hdiff

/-- Settles O46. -/
theorem secondLaneCollisionCutsTheLane : Obligations.SecondLaneCollisionCutsTheLane := by
  classical
  intro read s hr
  refine ⟨fun hstopped htx => congrArg Host.Outcome.next ?_, fun v sent hv => ?_⟩
  · rw [if_neg (by simp [hr]), hstopped, htx]
  intro clean
  have hexec : exec (.laneReadbackOutcome read) s =
      .next (v.takeLaneOutcome (if clean then .clean else .collision)) := by
    refine congrArg Host.Outcome.next ?_
    rw [if_neg (by simp [hr])]
    rcases hv with ⟨rest, hstopped, hv⟩ | ⟨hstopped, f, n, htx, hn, rfl, hv⟩
    · have hcompare : compareReadback sent (readBits read) = if clean then .clean else .collision :=
        compareReadback_eq _ _ (by rw [firstDiff_isNone_iff, laneReadback_length]; rfl)
      rw [hstopped]
      dsimp only
      rw [hcompare, hv]
    · obtain ⟨hsent, hnone⟩ := laneBitsSent_spec hn
      have hcompare : compareReadback (encodeLane f) (readBits read) = if clean then .clean else .collision :=
        compareReadback_eq _ _ hnone
      have huntil : s.line.untilSent .lane n = match s.line.tx with
          | some x => if x.kind = .lane then n - x.sent else 0
          | none => 0 := by
        unfold Line.untilSent
        cases s.line.tx <;> rfl
      rw [hstopped, htx]
      dsimp only
      rw [hcompare, hsent, huntil, hv]
      rfl
  have hkept : v.lanes = s.lanes ∧ v.own = s.own ∧ v.beat.cycle = s.beat.cycle := by
    rcases hv with ⟨rest, -, rfl⟩ | ⟨-, f, n, -, -, -, rfl⟩ <;> exact ⟨rfl, rfl, rfl⟩
  obtain ⟨hlanes, hown, hcycle⟩ := hkept
  obtain ⟨hnone, hsome⟩ := v.takeLaneOutcome_rows (if clean then .clean else .collision)
  rw [hexec, ← hlanes, ← hown, ← hcycle]
  refine ⟨fun h => congrArg _ (hnone h), fun l hl => ?_⟩
  obtain ⟨hclean, hfirst, hsecond⟩ := hsome l hl
  refine ⟨fun h => congrArg _ (hclean (if_pos h)), fun h hc => congrArg _ (hfirst (if_neg h) hc),
    fun h hc => ⟨_, rfl, ?_⟩⟩
  rw [hsecond (if_neg h) hc]
  exact ⟨fun k => LaneTable.without_get _ _ k, fun k => LaneTable.without_get _ _ k,
    rfl, rfl, rfl, rfl, rfl, rfl, rfl, rfl, rfl, rfl, rfl, rfl, rfl, rfl⟩

end Sys2Proof.Machine

/-! SUPPORT. Lane slots: the own frame sent, and the frames received and judged. -/

namespace Sys2Proof.Machine

theorem laneSequence_toNat (c : BitVec 16) : (laneSequence c).toNat = (c.toNat + 65536 - 3) % 256 := by
  have := c.isLt
  unfold laneSequence
  rw [BitVec.toNat_setWidth, BitVec.toNat_sub]
  change (65536 - 3 + c.toNat) % 65536 % 256 = _
  omega

/-- The marker of the own lane frame, row by row (Table 8-2). -/
theorem laneMarker_rows (age3 : Validity) (copy : LaneEntry) (closing : Bool) :
    (age3 ≠ .valid → laneMarker age3 copy closing = .silent) ∧
    (age3 = .valid → copy.isGranted = true → laneMarker age3 copy closing = .first) ∧
    (age3 = .valid → copy.isGranted = false →
      laneMarker age3 copy closing = if closing then .last else .continue) := by
  unfold laneMarker
  refine ⟨fun h => if_pos h, fun h hg => ?_, fun h hg => ?_⟩ <;> rw [if_neg (not_not.mpr h)]
  · exact if_pos hg
  · exact if_neg (by simp [hg])

/-- Settles O47. -/
theorem laneSlotSendsTheOwnFrame : Obligations.LaneSlotSendsTheOwnFrame := by
  intro lane s hr u sends
  have hsends : u.sendsLane lane = true ↔ sends := by
    simp only [State.sendsLane, Bool.and_eq_true, decide_eq_true_iff, beq_iff_eq, and_assoc]
    rfl
  have hexec : exec (.laneSlotStart lane) s = .next (if u.sendsLane lane then u.startLane lane else u) :=
    congrArg Host.Outcome.next (if_neg (by simp [hr]))
  obtain ⟨hsilent, hfirst, hother⟩ := laneMarker_rows (s.capture.ofAge 3).validity s.lanes.slotCopy[lane]
    s.lanes.closingCycle
  rw [hexec]
  exact ⟨fun h => congrArg _ (if_neg (mt hsends.mp h)), fun h => ⟨u.ownLaneFrame lane, rfl, rfl, rfl,
    laneSequence_toNat _, hsilent, hfirst, hother, congrArg _ (if_pos (hsends.mpr h))⟩⟩

/-! ## Acceptance (R130, R131) -/

theorem decodeLane_pattern {bits : List Bool} {f : LaneFrame} (h : decodeLane bits = some f) :
    bits.take 8 = lanePattern := by
  unfold decodeLane at h
  split at h
  next hok => exact hok.2.1
  next => cases h

theorem acceptLane_accepted {f : LaneFrame} {l : Lane} {copy : LaneEntry} {cycle : BitVec 16} :
    acceptLane f l copy cycle = .accepted ↔ f.lane = l ∧ copy.owner = some f.src ∧
      f.sequence.toNat = (cycle.toNat + 65536 - 3) % 256 := by
  rw [← laneSequence_toNat, BitVec.toNat_inj]
  unfold acceptLane
  split_ifs <;> simp_all

theorem acceptLane_unlisted {f : LaneFrame} {l : Lane} {copy : LaneEntry} {cycle : BitVec 16} :
    acceptLane f l copy cycle = .rejectedUnlisted ↔ f.lane = l ∧ copy.owner ≠ some f.src := by
  unfold acceptLane
  split_ifs <;> simp_all

/-- The frame that a delivery accepts, and whether it sets the unlisted flag. -/
theorem acceptance_spec {rx : SlotRx} {free : Nat} {l : Lane} {copy : LaneEntry} {cycle : BitVec 16}
    {good : LaneFrame → Prop} (hgood : ∀ f, laneClass rx l free = .good f ↔ good f) :
    (∀ f, (acceptance rx free l copy cycle).1 = some f ↔ good f ∧ f.lane = l ∧ copy.owner = some f.src ∧
      f.sequence.toNat = (cycle.toNat + 65536 - 3) % 256) ∧
    ((acceptance rx free l copy cycle).2 = true ↔ ∃ f, good f ∧ f.lane = l ∧ copy.owner ≠ some f.src) := by
  unfold acceptance
  simp only [← hgood, ← acceptLane_accepted, ← acceptLane_unlisted (cycle := cycle)]
  cases hclass : laneClass rx l free with
  | good g =>
    dsimp only
    simp only [SlotClass.good.injEq, exists_eq_left']
    cases hg : acceptLane g l copy cycle <;> simp [hg]
  | empty => simp
  | misplaced => simp
  | corrupt => simp

/-! ## Judgement (R132 to R136) -/

theorem LaneEntry.isFree_iff (e : LaneEntry) : e.isFree = true ↔ e = .free := by
  cases e <;> simp [LaneEntry.isFree]

theorem laneStart_sub (lane : Lane) : laneStart lane.val - 8 = 1592 + 1088 * lane.val := by
  unfold laneStart
  omega

theorem Line.lanesDelivered_iff (l : Line) :
    l.lanesDelivered = true ↔ ∀ k : Lane, l.laneSpans[k] = false := by
  simp [Line.lanesDelivered, Fin.forall_iff]

theorem Line.lanesDelivered_put {l m : Line} {lane : Lane} (h : m.laneSpans = put l.laneSpans lane false) :
    m.lanesDelivered = true ↔ ∀ k : Lane, k ≠ lane → l.laneSpans[k] = false := by
  rw [Line.lanesDelivered_iff, h]
  refine forall_congr' fun k => ?_
  rw [put_get]
  by_cases h : lane = k
  · simp [h]
  · simp [h, Ne.symm h]

/-- Receive state, samples, ramp, open indication and faded flag after a judgement (Tables 8-4 to 8-6). -/
theorem LaneRx.judge_rows (copy : LaneEntry) (own : Addr) (frame : Option LaneFrame) (old : LaneRx)
    (haccepted : ∀ f, frame = some f → copy ≠ .free) :
    let new := old.judge copy own frame
    ∃ c : Contribution, new.contribution = some c ∧ c.own = decide (copy.owner = some own) ∧
      (copy = .free → new.state = .muted ∧ c.samples = silence ∧ c.ramp = .zero ∧ c.isOpen = false ∧
        new.faded = true) ∧
      (∀ f, frame = some f → f.marker = .silent → new.state = .good ∧ c.samples = silence ∧
        c.ramp = .zero ∧ c.isOpen = false ∧ new.faded = true) ∧
      (∀ f, frame = some f → f.marker ≠ .silent → new.state = .good ∧ c.samples = f.samples ∧
        c.isOpen = true ∧
        (old.faded = true ∨ f.marker = .first → c.ramp = .rising ∧ new.faded = false) ∧
        (old.faded = false → f.marker = .last → c.ramp = .falling ∧ new.faded = true) ∧
        (old.faded = false → f.marker = .continue → c.ramp = .unity ∧ new.faded = false)) ∧
      (copy ≠ .free → frame = none → old.state = .good → new.state = .concealed ∧
        c.samples = old.lastGood ∧ c.ramp = .falling ∧ c.isOpen = true ∧ new.faded = true) ∧
      (copy ≠ .free → frame = none → old.state ≠ .good → new.state = .muted ∧
        c.samples = silence ∧ c.ramp = .zero ∧ c.isOpen = false ∧ new.faded = true) := by
  have hfree : ¬ copy.isFree = true ↔ copy ≠ .free := not_congr copy.isFree_iff
  refine ⟨_, rfl, ?_, fun h => ?_, fun f hf hm => ?_, fun f hf hm => ?_, fun h hn hg => ?_, fun h hn hg => ?_⟩
  · exact beq_eq_decide _ _
  · subst h
    exact ⟨rfl, rfl, rfl, rfl, rfl⟩
  · have hj : judgement copy frame old =
        { state := .good, samples := silence, ramp := .zero, isOpen := false } := by
      unfold judgement
      rw [if_neg (hfree.mpr (haccepted f hf)), hf]
      exact if_pos hm
    simp [LaneRx.judge, hj, fadedAfter]
  · have hj : judgement copy frame old =
        { state := .good, samples := f.samples, ramp := acceptedRamp f.marker old.faded, isOpen := true } := by
      unfold judgement
      rw [if_neg (hfree.mpr (haccepted f hf)), hf]
      exact if_neg hm
    simp only [LaneRx.judge, hj, acceptedRamp]
    refine ⟨trivial, trivial, trivial, fun h => ?_, fun h hmark => ?_, fun h hmark => ?_⟩
    · rcases h with h | h
      · simp [h, fadedAfter]
      · cases hfaded : old.faded <;> simp [h, fadedAfter]
    · simp [h, hmark, fadedAfter]
    · simp [h, hmark, fadedAfter]
  · have hj : judgement copy frame old =
        { state := .concealed, samples := old.lastGood, ramp := .falling, isOpen := true } := by
      unfold judgement
      rw [if_neg (hfree.mpr h), hn]
      exact if_pos hg
    simp [LaneRx.judge, hj, fadedAfter]
  · have hj : judgement copy frame old =
        { state := .muted, samples := silence, ramp := .zero, isOpen := false } := by
      unfold judgement
      rw [if_neg (hfree.mpr h), hn]
      exact if_neg hg
    simp [LaneRx.judge, hj, fadedAfter]

/-- Settles O48. -/
theorem laneSlotIsJudged : Obligations.LaneSlotIsJudged := by
  intro lane rx s hr
  refine ⟨fun hspan => congrArg Host.Outcome.next ?_, fun hspan edge hedge => ?_⟩
  · rw [if_neg (by simp [hr]), if_neg (by simp [hspan])]
  intro copy good accepted unlisted missing old decided u
  have hfirst : laneEdge rx lane s.line.slotFree = edge := by
    unfold laneEdge
    rw [laneStart_sub]
    exact slotEdge_eq hedge
  have hdecided : laneDecidedAt rx lane s.line.slotFree = decided := by
    unfold laneDecidedAt
    rw [hfirst, laneStart_sub]
    cases edge <;> rfl
  have hexec : exec (.laneSlotDelivered lane rx) s = .next (u.receiveLane lane rx).handSet := by
    refine congrArg Host.Outcome.next ?_
    rw [if_neg (by simp [hr]), if_pos hspan, hdecided]
  have hclass (f : LaneFrame) : laneClass rx lane s.line.slotFree = .good f ↔ good f := by
    unfold laneClass
    rw [classifySlot_good_iff fun _ _ => decodeLane_pattern, hfirst]
    rfl
  obtain ⟨hsome, hunlisted⟩ := acceptance_spec (copy := copy) (cycle := s.beat.cycle) hclass
  have hmissing : missing ↔ (acceptance rx s.line.slotFree lane copy s.beat.cycle).1 = none := by
    rw [Option.eq_none_iff_forall_ne_some]
    exact forall_congr' fun f => not_congr (hsome f).symm
  have hline : (u.receiveLane lane rx).line = { u.line with
      laneSpans := put u.line.laneSpans lane false
      slotFree := if edge = none then s.line.slotFree else decided } := by
    rw [← freeAfter_eq, ← hfirst, ← hdecided]
    rfl
  generalize hacc : acceptance rx s.line.slotFree lane copy s.beat.cycle = acc at hsome hunlisted hmissing
  obtain ⟨frame, flag⟩ := acc
  dsimp only at hsome hunlisted hmissing
  have haudio : (u.receiveLane lane rx).audio = { s.audio with
      lanes := put s.audio.lanes lane (old.judge copy s.own frame), unlisted := s.audio.unlisted || flag } := by
    change ({ s.audio with
      lanes := put s.audio.lanes lane
        (old.judge copy s.own (acceptance rx s.line.slotFree lane copy s.beat.cycle).1)
      unlisted := s.audio.unlisted || (acceptance rx s.line.slotFree lane copy s.beat.cycle).2 } : LaneAudio) = _
    rw [hacc]
  have howner (f : LaneFrame) (hf : frame = some f) : copy ≠ .free := by
    obtain ⟨-, -, howned, -⟩ := (hsome f).mp hf
    rintro hfree
    rw [hfree] at howned
    cases howned
  obtain ⟨c, hc, hown, hfree, hsilent, hvoice, hconceal, hmute⟩ := LaneRx.judge_rows copy s.own frame old howner
  have hframe := (u.receiveLane lane rx).handSet_frame
  refine ⟨_, old.judge copy s.own frame, c, hexec, hc, hown, fun f h => (hsome f).mpr h, hmissing.mp,
    fun f h => ?_, fun h => ?_, hfree, fun f h => hsilent f ((hsome f).mpr h), fun f h => hvoice f ((hsome f).mpr h),
    fun h hm => hconceal h (hmissing.mp hm), fun h hm => hmute h (hmissing.mp hm), ?_, ?_, ?_, fun h => ?_,
    fun h => ?_, ?_⟩
  · change lastGoodAfter frame old.lastGood = _
    rw [(hsome f).mpr h]
    rfl
  · change lastGoodAfter frame old.lastGood = _
    rw [hmissing.mp h]
    rfl
  · rw [hframe]
    dsimp only
    rw [haudio]
  · rw [hframe]
    dsimp only
    rw [haudio, Bool.or_eq_true, hunlisted]
  · rw [hframe]
    exact hline
  · obtain ⟨k, hk, hspans⟩ := h
    unfold State.handSet
    rw [if_neg]
    · rfl
    · rw [Line.lanesDelivered_put (l := u.line) (lane := lane) (by rw [hline])]
      exact fun h => Bool.noConfusion ((h k hk).symm.trans hspans)
  · unfold State.handSet
    rw [if_pos ((Line.lanesDelivered_put (l := u.line) (lane := lane) (by rw [hline])).mpr h)]
    refine ⟨(u.receiveLane lane rx).audio.contributions, ?_, fun k hk => ?_, rfl⟩
    · rw [LaneAudio.contributions, ofFn_get, haudio]
      dsimp only
      rw [put_get_self, hc, Option.getD_some]
    · rw [LaneAudio.contributions, ofFn_get, haudio]
      dsimp only
      rw [put_get_ne _ _ (Ne.symm hk)]
  · rw [hframe]
    rfl

end Sys2Proof.Machine

/-! SUPPORT. The stages of the election: announcements, repair, claims, preemption. -/

namespace Sys2Proof.Machine

theorem ageOf_eq (field : BitVec 8) : ageOf field = if field = 0 then 1 else field.toNat := by
  unfold ageOf
  by_cases h : field = 0
  · rw [if_pos h, h]
    rfl
  · have hpos : field.toNat ≠ 0 := fun h0 => h (BitVec.eq_of_toNat_eq (by simpa using h0))
    rw [if_neg h]
    omega

/-! ## The best element of a list -/

/-- The better of a best element so far and a next one, which must be strictly better. -/
def keepBest {α : Type} (better : α → α → Bool) (best : Option α) (x : α) : Option α :=
  match best with
  | none => some x
  | some b => if better x b then some x else some b

/-- The best element of a list is at least as good as every other. `R` relates earlier elements to later
ones. -/
theorem foldl_keepBest {α : Type} {better : α → α → Bool} {R le : α → α → Prop}
    (hrefl : ∀ x, le x x) (htrans : ∀ x y z, le x y → le y z → le x z)
    (hbetter : ∀ b x, better x b = true → le x b)
    (hkeep : ∀ b x, R b x → better x b = false → le b x) {xs : List α} (hxs : xs.Pairwise R) {b : α}
    (hb : ∀ x ∈ xs, R b x) :
    ∃ w, xs.foldl (keepBest better) (some b) = some w ∧ (w = b ∨ w ∈ xs) ∧ le w b ∧ ∀ x ∈ xs, le w x := by
  induction xs generalizing b with
  | nil => exact ⟨b, rfl, .inl rfl, hrefl b, nofun⟩
  | cons y ys ih =>
    obtain ⟨hy, hys⟩ := List.pairwise_cons.mp hxs
    rw [List.foldl_cons]
    by_cases h : better y b = true
    · have hstep : keepBest better (some b) y = some y := if_pos h
      obtain ⟨w, hw, hmem, hle, hall⟩ := ih hys hy
      rw [hstep]
      exact ⟨w, hw, .inr (hmem.elim (fun h => h ▸ List.mem_cons_self) (List.mem_cons_of_mem y)),
        htrans _ _ _ hle (hbetter b y h), List.forall_mem_cons.mpr ⟨hle, hall⟩⟩
    · have hstep : keepBest better (some b) y = some b := if_neg h
      obtain ⟨w, hw, hmem, hle, hall⟩ := ih hys fun x hx => hb x (List.mem_cons_of_mem y hx)
      have hby : le b y := hkeep b y (hb y List.mem_cons_self) (Bool.eq_false_iff.mpr h)
      rw [hstep]
      exact ⟨w, hw, hmem.imp_right (List.mem_cons_of_mem y), hle,
        List.forall_mem_cons.mpr ⟨htrans _ _ _ hle hby, hall⟩⟩

/-- The best of a list, if it is not empty. -/
theorem foldl_keepBest_none {α : Type} {better : α → α → Bool} {R le : α → α → Prop}
    (hrefl : ∀ x, le x x) (htrans : ∀ x y z, le x y → le y z → le x z)
    (hbetter : ∀ b x, better x b = true → le x b)
    (hkeep : ∀ b x, R b x → better x b = false → le b x) {xs : List α} (hxs : xs.Pairwise R) :
    (xs = [] ∧ xs.foldl (keepBest better) none = none) ∨
      ∃ w ∈ xs, xs.foldl (keepBest better) none = some w ∧ ∀ x ∈ xs, le w x := by
  cases xs with
  | nil => exact .inl ⟨rfl, rfl⟩
  | cons y ys =>
    obtain ⟨hy, hys⟩ := List.pairwise_cons.mp hxs
    obtain ⟨w, hw, hmem, hle, hall⟩ := foldl_keepBest hrefl htrans hbetter hkeep hys hy
    exact .inr ⟨w, hmem.elim (fun h => h ▸ List.mem_cons_self) (List.mem_cons_of_mem y), hw,
      List.forall_mem_cons.mpr ⟨hle, hall⟩⟩

/-! ## Announcements and winners (R110, R111) -/

theorem announces_iff {sync : SyncState} {p : Presence} : announces sync p = true ↔
    p = .present ∨ p = .arriving ∨ (sync = .incompatible ∧ p = .foreign) := by
  cases p <;> simp [announces]

theorem announcementOf_iff {sync : SyncState} {voided : Option Addr} {d : Delivery} {x : Announcement} :
    announcementOf sync voided d x.addr = some x ↔ ∃ r : Report, d.entries[x.addr] = some r ∧
      r.held = some x.lane ∧ r.closing = false ∧ voided ≠ some x.addr ∧
      (d.peers[x.addr].presence = .present ∨ d.peers[x.addr].presence = .arriving ∨
        (sync = .incompatible ∧ d.peers[x.addr].presence = .foreign)) ∧
      x.age = (if r.age = 0 then 1 else r.age.toNat) ∧ x.role = r.role ∧ x.score = r.score.toNat ∧
      x.idle = r.idle := by
  simp only [← ageOf_eq, ← announces_iff]
  constructor
  · intro h
    obtain ⟨-, hvoid, hann, r, hr, hheld, hclosing, hage, hrole, hscore, hidle⟩ := announcementOf_some h
    exact ⟨r, hr, hheld, hclosing, hvoid, hann, hage, hrole, hscore, hidle⟩
  · rintro ⟨r, hr, hheld, hclosing, hvoid, hann, hage, hrole, hscore, hidle⟩
    unfold announcementOf
    rw [hr]
    dsimp only
    rw [hheld]
    dsimp only
    rw [hclosing, hann, if_neg (by simp [hvoid]), ← hage, ← hrole, ← hscore, ← hidle]

theorem mem_announcements_addr {sync : SyncState} {voided : Option Addr} {d : Delivery} {x : Announcement} :
    x ∈ announcements sync voided d ↔ announcementOf sync voided d x.addr = some x := by
  rw [mem_announcements]
  refine ⟨fun ⟨a, h⟩ => ?_, fun h => ⟨_, h⟩⟩
  rwa [(announcementOf_some h).1]

/-- The announcements stand in ascending address. -/
theorem announcements_ascending (sync : SyncState) (voided : Option Addr) (d : Delivery) :
    (announcements sync voided d).Pairwise fun x y => x.addr < y.addr := by
  unfold announcements
  rw [List.pairwise_filterMap]
  refine (List.pairwise_lt_finRange 16).imp fun hab x hx y hy => ?_
  rwa [(announcementOf_some hx).1, (announcementOf_some hy).1]

/-- `w` is announced with a higher age than `x`, or with as high a one and from no higher an address (R111). -/
def Announcement.Wins (w x : Announcement) : Prop := x.age < w.age ∨ (x.age = w.age ∧ w.addr ≤ x.addr)

theorem Announcement.Wins.trans {x y z : Announcement} (h : x.Wins y) (k : y.Wins z) : x.Wins z := by
  simp only [Announcement.Wins, Fin.le_def] at *
  omega

theorem winner_eq_keepBest {m : Nat} {l : Lane} (h : l.val < m) (xs : List Announcement) :
    winner m xs l = (xs.filter fun a => a.lane == l).foldl
      (keepBest fun x b => decide (b.age < x.age)) none := by
  unfold winner
  rw [if_pos h]
  congr 1
  funext best a
  unfold betterAnnouncement keepBest
  cases best <;> simp

theorem winner_iff {m : Nat} {xs : List Announcement} {l : Lane} {w : Announcement}
    (hxs : xs.Pairwise fun x y => x.addr < y.addr) (hinj : ∀ x ∈ xs, ∀ y ∈ xs, x.addr = y.addr → x = y) :
    winner m xs l = some w ↔ l.val < m ∧ w ∈ xs ∧ w.lane = l ∧ ∀ x ∈ xs, x.lane = l → w.Wins x := by
  by_cases hl : l.val < m
  case neg =>
    exact ⟨fun h => absurd (winner_some h).1 hl, fun h => absurd h.1 hl⟩
  rw [winner_eq_keepBest hl]
  have hbest := foldl_keepBest_none (better := fun x b => decide (b.age < x.age)) (le := Announcement.Wins)
    (fun x => .inr ⟨rfl, le_rfl⟩) (fun _ _ _ => Announcement.Wins.trans)
    (fun b x h => .inl (of_decide_eq_true h))
    (fun b x hbx h => by
      have hnot : ¬ b.age < x.age := of_decide_eq_false h
      simp only [Announcement.Wins, Fin.le_def, Fin.lt_def] at hbx ⊢
      omega)
    (hxs.filter fun a => a.lane == l)
  rcases hbest with ⟨hnil, hnone⟩ | ⟨v, hv, hsome, hall⟩
  · rw [hnone]
    refine ⟨nofun, fun ⟨_, hw, hlane, _⟩ => ?_⟩
    have : w ∈ xs.filter fun a => a.lane == l := List.mem_filter.mpr ⟨hw, beq_iff_eq.mpr hlane⟩
    rw [hnil] at this
    cases this
  · obtain ⟨hvmem, hvlane⟩ := List.mem_filter.mp hv
    rw [beq_iff_eq] at hvlane
    have hvwins : ∀ x ∈ xs, x.lane = l → v.Wins x := fun x hx hxl =>
      hall x (List.mem_filter.mpr ⟨hx, beq_iff_eq.mpr hxl⟩)
    rw [hsome, Option.some.injEq]
    constructor
    · rintro rfl
      exact ⟨hl, hvmem, hvlane, hvwins⟩
    · rintro ⟨-, hw, hwl, hwins⟩
      have hvw := hvwins w hw hwl
      have hwv := hwins v hvmem hvlane
      refine hinj v hvmem w hw ?_
      simp only [Announcement.Wins, Fin.le_def, Fin.ext_iff] at hvw hwv ⊢
      omega

/-- Settles O38. -/
theorem winnerIsTheOldestAnnouncement : Obligations.WinnerIsTheOldestAnnouncement := by
  refine ⟨fun sync voided d x => mem_announcements_addr.trans announcementOf_iff,
    fun m sync voided d l w => winner_iff (announcements_ascending sync voided d) fun x hx y hy h => ?_⟩
  have hxa := mem_announcements_addr.mp hx
  rw [h, mem_announcements_addr.mp hy] at hxa
  exact (Option.some.inj hxa).symm

end Sys2Proof.Machine

/-! SUPPORT. The stages of the election: frees, confirmation, claims, preemption, adoption. -/

namespace Sys2Proof.Machine

/-! ## Frees and confirmation (R91, R92) -/

theorem freedInStage2_iff {d : Delivery} {l : Lane} {o : Addr} : freedInStage2 d l o = true ↔
    d.peers[o].presence = .absent ∨ d.peers[o].presence = .foreign ∨
      ∃ r : Report, d.entries[o] = some r ∧ (r.held ≠ some l ∨ r.closing = true) := by
  unfold freedInStage2
  cases d.entries[o] <;> simp [or_assoc]

theorem stage3_get (d : Delivery) (t : LaneTable) (l : Lane) : (stage3 d t)[l] = confirm d t[l] := ofFn_get _ l

/-- Settles O40. -/
theorem lanesAreFreedAndConfirmed : Obligations.LanesAreFreedAndConfirmed := by
  intro d t l
  refine ⟨fun h => ⟨?_, ?_⟩, fun o ho => ⟨fun hf => ?_, fun hf => ?_⟩,
    fun o k score idle h => ⟨fun r hr => ?_, fun hr => ?_⟩,
    fun o k age score idle h => ⟨fun r hr => ?_, fun hr => ?_⟩⟩
  · rw [stage2_get, h]
    rfl
  · rw [stage3_get, h]
    rfl
  · rw [stage2_get, ho]
    exact if_pos (freedInStage2_iff.mpr hf)
  · rw [stage2_get, ho]
    exact if_neg (mt freedInStage2_iff.mp hf)
  all_goals
    rw [stage3_get, h]
    unfold confirm
    dsimp only
    rw [hr]
  · rw [← ageOf_eq]
  · rw [← ageOf_eq]
  · rfl

/-! ## Claims (R93, R94) -/

theorem hasMuteAll_iff {d : Delivery} : hasMuteAll d = true ↔ ∃ (a : Addr) (x : Report),
    d.entries[a] = some x ∧ d.peers[a].presence = .present ∧ x.role = .chair ∧ x.muteAll = true := by
  unfold hasMuteAll
  rw [List.any_eq_true]
  refine exists_congr fun a => ?_
  cases d.entries[a] <;> simp [and_assoc]

theorem claimOf_iff {d : Delivery} {t : LaneTable} {c : Claim} :
    claimOf d t c.addr = some c ↔ ∃ r : Report,
      d.entries[c.addr] = some r ∧ d.peers[c.addr].presence = .present ∧ r.request ≠ .none ∧
      (∀ l : Lane, t[l].owner ≠ some c.addr) ∧
      ((∃ (a : Addr) (x : Report), d.entries[a] = some x ∧ d.peers[a].presence = .present ∧
        x.role = .chair ∧ x.muteAll = true) → r.role = .chair) ∧
      (c.priority = true ↔ r.request = .priority) ∧
      c.wait = (if r.age = 0 then 1 else r.age.toNat) ∧ c.score = r.score.toNat := by
  simp only [← ageOf_eq, ← hasMuteAll_iff, ← LaneTable.laneOf_none]
  constructor
  · intro h
    obtain ⟨-, hpresent, hlane, r, hr, hrequest, hmute, hpriority, hwait, hscore⟩ := claimOf_some h
    exact ⟨r, hr, hpresent, hrequest, hlane, hmute, by rw [hpriority, decide_eq_true_iff], hwait, hscore⟩
  · rintro ⟨r, hr, hpresent, hrequest, hlane, hmute, hpriority, hwait, hscore⟩
    have hp : decide (r.request = .priority) = c.priority := by
      rw [Bool.eq_iff_iff, decide_eq_true_iff, hpriority]
    unfold claimOf
    rw [hr]
    dsimp only
    rw [if_pos ⟨hpresent, hrequest, hlane, hmute⟩, hp, ← hwait, ← hscore]

/-- `x` stands before `y` in a claim list (R93). -/
def Claim.Precedes (x y : Claim) : Prop :=
  (x.priority = true ∧ y.priority = false) ∨ (x.priority = y.priority ∧
    (y.wait < x.wait ∨ (y.wait = x.wait ∧ (y.score < x.score ∨ (y.score = x.score ∧ x.addr < y.addr)))))

theorem claimBefore_iff {x y : Claim} : claimBefore x y = true ↔ x.Precedes y := by
  unfold claimBefore Claim.Precedes
  split_ifs with hp hw hs
  · cases hx : x.priority <;> cases hy : y.priority <;> simp_all
  · rw [not_not] at hp
    simp [hp]
    omega
  · rw [not_not] at hp hw
    simp [hp, hw]
    omega
  · rw [not_not] at hp hw hs
    simp [hp, hw, hs]

theorem Claim.Precedes.trans {x y z : Claim} (h : x.Precedes y) (k : y.Precedes z) : x.Precedes z := by
  simp only [Claim.Precedes, Fin.lt_def] at *
  cases hx : x.priority <;> cases hy : y.priority <;> cases hz : z.priority <;> simp_all <;> omega

/-- Two claims of different addresses stand in one order or the other. -/
theorem Claim.precedes_total {x y : Claim} (hne : x.addr ≠ y.addr) (h : ¬ x.Precedes y) : y.Precedes x := by
  simp only [Claim.Precedes, Fin.lt_def, ne_eq, Fin.ext_iff] at *
  cases hx : x.priority <;> cases hy : y.priority <;> simp_all <;> omega

theorem insertClaim_sorted {c : Claim} {cs : List Claim} (hc : ∀ x ∈ cs, c.addr ≠ x.addr)
    (h : cs.Pairwise Claim.Precedes) : (insertClaim c cs).Pairwise Claim.Precedes := by
  induction cs with
  | nil => exact List.pairwise_singleton _ c
  | cons x rest ih =>
    obtain ⟨hx, hrest⟩ := List.pairwise_cons.mp h
    rw [List.forall_mem_cons] at hc
    unfold insertClaim
    by_cases hbefore : claimBefore c x = true
    · rw [if_pos hbefore]
      have hcx := claimBefore_iff.mp hbefore
      exact List.pairwise_cons.mpr ⟨List.forall_mem_cons.mpr ⟨hcx, fun y hy => hcx.trans (hx y hy)⟩, h⟩
    · rw [if_neg hbefore]
      refine List.pairwise_cons.mpr ⟨fun y hy => ?_, ih hc.2 hrest⟩
      rcases List.mem_cons.mp ((insertClaim_perm c rest).mem_iff.mp hy) with rfl | hy
      · exact Claim.precedes_total hc.1 (mt claimBefore_iff.mpr hbefore)
      · exact hx y hy

theorem foldr_insertClaim_sorted {cs : List Claim} (h : (cs.map (·.addr)).Nodup) :
    (cs.foldr insertClaim []).Pairwise Claim.Precedes := by
  induction cs with
  | nil => exact List.Pairwise.nil
  | cons c cs ih =>
    obtain ⟨hc, hcs⟩ := List.nodup_cons.mp h
    refine insertClaim_sorted (fun x hx heq => hc ?_) (ih hcs)
    exact List.mem_map.mpr ⟨x, (foldr_insertClaim_perm cs).mem_iff.mp hx, heq.symm⟩

/-- Settles O37. -/
theorem claimListIsOrderedAndComplete : Obligations.ClaimListIsOrderedAndComplete := by
  intro d t
  refine ⟨foldr_insertClaim_sorted ?_, fun c => mem_claimList.trans claimOf_iff⟩
  exact (((claimList_perm d t).map _).nodup_iff).mp (claimList_nodup d t)

/-! ## Preemption (R97, R98) -/

/-- HELD lane `l` is eligible for the claim (R97, R98). -/
theorem isVictim_iff {policy : Policy} {c : Claim} {e : LaneEntry} : isVictim policy c e = true ↔
    ∃ o age score, (∃ idle, e = .held o .auto age score idle) ∧
      (c.priority = true ∨ (policy = .loudest ∧ 25 ≤ age ∧ score + 12 ≤ c.score)) := by
  constructor
  · intro h
    obtain ⟨o, age, score, idle, rfl⟩ := isVictim_held h
    refine ⟨o, age, score, ⟨idle, rfl⟩, ?_⟩
    simpa [isVictim, and_assoc] using h
  · rintro ⟨o, age, score, ⟨idle, rfl⟩, h⟩
    simpa [isVictim, and_assoc] using h

/-- What a victim is chosen by: score, hold age, and how far its owner address lies below the highest (R97). -/
def LaneEntry.weakness : LaneEntry → Nat × Nat × Nat
  | .held o _ age score _ => (score, age, 15 - o.val)
  | _ => (0, 0, 0)

/-- Entry `x` is as weak a victim as `y`: a lower score, then a lower hold age, then as high an owner address. -/
def LaneEntry.AsWeak (x y : LaneEntry) : Prop :=
  x.weakness.1 < y.weakness.1 ∨ (x.weakness.1 = y.weakness.1 ∧ (x.weakness.2.1 < y.weakness.2.1 ∨
    (x.weakness.2.1 = y.weakness.2.1 ∧ x.weakness.2.2 ≤ y.weakness.2.2)))

theorem LaneEntry.AsWeak.refl (x : LaneEntry) : x.AsWeak x := .inr ⟨rfl, .inr ⟨rfl, le_rfl⟩⟩

theorem LaneEntry.AsWeak.trans {x y z : LaneEntry} (h : x.AsWeak y) (k : y.AsWeak z) : x.AsWeak z := by
  unfold LaneEntry.AsWeak at *
  omega

theorem LaneEntry.AsWeak.of_victimBefore {x y : LaneEntry} (h : victimBefore x y = true) : x.AsWeak y := by
  cases x <;> cases y <;> simp only [victimBefore, Bool.false_eq_true] at h
  unfold LaneEntry.AsWeak LaneEntry.weakness
  split_ifs at h <;> simp only [decide_eq_true_iff, Fin.lt_def] at h ⊢ <;> omega

theorem LaneEntry.AsWeak.of_not_victimBefore {policy : Policy} {c : Claim} {x y : LaneEntry}
    (hx : isVictim policy c x = true) (hy : isVictim policy c y = true) (h : victimBefore y x = false) :
    x.AsWeak y := by
  obtain ⟨ox, ax, sx, ix, rfl⟩ := isVictim_held hx
  obtain ⟨oy, ay, sy, iy, rfl⟩ := isVictim_held hy
  simp only [victimBefore] at h
  unfold LaneEntry.AsWeak LaneEntry.weakness
  split_ifs at h <;> simp only [decide_eq_false_iff_not, Fin.lt_def] at h ⊢ <;> omega

/-- The chosen victim is an eligible lane, and no eligible lane is weaker. -/
theorem chooseVictim_spec (policy : Policy) (c : Claim) (t : LaneTable) :
    ((∀ l : Lane, ¬ isVictim policy c t[l] = true) ∧ chooseVictim policy c t = none) ∨
      ∃ l : Lane, chooseVictim policy c t = some l ∧ isVictim policy c t[l] = true ∧
        ∀ k : Lane, isVictim policy c t[k] = true → t[l].AsWeak t[k] := by
  have hchoose : chooseVictim policy c t = ((List.finRange 4).filter fun l => isVictim policy c t[l]).foldl
      (keepBest fun l b => victimBefore t[l] t[b]) none := by
    unfold chooseVictim
    congr 1
    funext best l
    cases best <;> rfl
  have hpairs : ((List.finRange 4).filter fun l => isVictim policy c t[l]).Pairwise
      fun b x => isVictim policy c t[b] = true ∧ isVictim policy c t[x] = true :=
    List.pairwise_filter.mpr ((List.pairwise_lt_finRange 4).imp fun _ hb hx => ⟨hb, hx⟩)
  have hbest := foldl_keepBest_none (better := fun l b : Lane => victimBefore t[l] t[b])
    (le := fun l k => t[l].AsWeak t[k]) (fun l => .refl t[l]) (fun _ _ _ => LaneEntry.AsWeak.trans)
    (fun _ _ => LaneEntry.AsWeak.of_victimBefore)
    (fun _ _ hv => LaneEntry.AsWeak.of_not_victimBefore hv.1 hv.2) hpairs
  rw [← hchoose] at hbest
  rcases hbest with ⟨hnil, hnone⟩ | ⟨l, hl, hsome, hall⟩
  · refine .inl ⟨fun l hv => ?_, hnone⟩
    have : l ∈ (List.finRange 4).filter fun l => isVictim policy c t[l] :=
      List.mem_filter.mpr ⟨List.mem_finRange l, hv⟩
    rw [hnil] at this
    cases this
  · exact .inr ⟨l, hsome, (List.mem_filter.mp hl).2,
      fun k hk => hall k (List.mem_filter.mpr ⟨List.mem_finRange k, hk⟩)⟩

/-- Settles O42. -/
theorem preemptionTakesTheWeakestLane : Obligations.PreemptionTakesTheWeakestLane := by
  intro policy t c cs eligible
  have helig (l : Lane) : isVictim policy c t[l] = true ↔ ∃ o age score, eligible l o age score := isVictim_iff
  refine ⟨rfl, fun hnone => ?_, fun ⟨l, hl⟩ => ?_⟩
  · rcases chooseVictim_spec policy c t with ⟨-, hchosen⟩ | ⟨l, -, hv, -⟩
    · unfold stage7
      dsimp only
      rw [hchosen]
    · obtain ⟨o, age, score, h⟩ := (helig l).mp hv
      exact absurd h (hnone l o age score)
  · rcases chooseVictim_spec policy c t with ⟨hnone, -⟩ | ⟨v, hchosen, hv, hweak⟩
    · exact absurd ((helig l).mpr hl) (hnone l)
    · obtain ⟨o, age, score, h⟩ := (helig v).mp hv
      refine ⟨v, o, age, score, h, fun k p a x hk => ?_, ?_⟩
      · have hle := hweak k ((helig k).mpr ⟨p, a, x, hk⟩)
        obtain ⟨⟨iv, hve⟩, -⟩ := h
        obtain ⟨⟨ik, hke⟩, -⟩ := hk
        rw [hve, hke] at hle
        simp only [LaneEntry.AsWeak, LaneEntry.weakness] at hle
        simp only [Fin.le_def]
        have hp := p.isLt
        have ho := o.isLt
        omega
      · unfold stage7
        dsimp only
        rw [hchosen]
        rfl

end Sys2Proof.Machine

/-! SUPPORT. Stage 1 lane by lane: adoption by repair, and follow mode. -/

namespace Sys2Proof.Machine

/-! ## Adoption (R112, R113) -/

section
variable {win : Lane → Option Announcement} {before : LaneTable}

/-- No two lanes have winners of one address. -/
def OneWinnerAnAddress (win : Lane → Option Announcement) : Prop :=
  ∀ (j k : Lane) (x y : Announcement), win j = some x → win k = some y → x.addr = y.addr → j = k

theorem adoption_iff {l : Lane} {w : Announcement} :
    adoption win before l = some w ↔ win l = some w ∧ before[l].owner ≠ some w.addr := by
  refine ⟨adoption_some, fun ⟨hw, ho⟩ => ?_⟩
  unfold adoption
  rw [hw]
  exact if_neg ho

/-- One adoption in lane `k`, or none. -/
def adoptLane (win : Lane → Option Announcement) (before t : LaneTable) (k : Lane) : LaneTable :=
  match adoption win before k with
  | some w => adopt t k w
  | none => t

theorem repairTable_eq_foldl (t : LaneTable) :
    repairTable win before t = (List.finRange 4).foldl (adoptLane win before) t := rfl

theorem adoptLane_self {t : LaneTable} {l : Lane} {w : Announcement} (h : adoption win before l = some w) :
    (adoptLane win before t l)[l] = heldFrom w := by
  unfold adoptLane
  rw [h]
  exact put_get_self _ _ _

theorem adoptLane_freed {t : LaneTable} {k l : Lane} {w : Announcement} (hkl : k ≠ l)
    (h : adoption win before k = some w) (ho : t[l].owner = some w.addr) :
    (adoptLane win before t k)[l] = .free := by
  unfold adoptLane
  rw [h]
  dsimp only
  rw [adopt, put_get_ne _ _ hkl, LaneTable.without_get, if_pos ho]

theorem adoptLane_other {t : LaneTable} {k l : Lane} (hl : k = l → adoption win before k = none)
    (h : ∀ w, adoption win before k = some w → t[l].owner ≠ some w.addr) :
    (adoptLane win before t k)[l] = t[l] := by
  unfold adoptLane
  split
  next w hw =>
    have hkl : k ≠ l := fun heq => by rw [hl heq] at hw; cases hw
    rw [adopt, put_get_ne _ _ hkl, LaneTable.without_get, if_neg (h w hw)]
  next => rfl

/-- A lane that is not adopted, after adoptions that do not free it. -/
theorem foldl_adoptLane_kept {ls : List Lane} {t : LaneTable} {l : Lane}
    (hl : l ∈ ls → adoption win before l = none)
    (h : ∀ k ∈ ls, ∀ w, adoption win before k = some w → t[l].owner ≠ some w.addr) :
    (ls.foldl (adoptLane win before) t)[l] = t[l] := by
  induction ls generalizing t with
  | nil => rfl
  | cons k ks ih =>
    have hstep : (adoptLane win before t k)[l] = t[l] :=
      adoptLane_other (fun heq => heq ▸ hl (heq ▸ List.mem_cons_self)) (h k List.mem_cons_self)
    rw [List.foldl_cons, ih (fun hmem => hl (List.mem_cons_of_mem k hmem)), hstep]
    rw [hstep]
    exact fun j hj => h j (List.mem_cons_of_mem k hj)

/-- A lane that is not adopted, after the adoption of another lane for its owner. -/
theorem foldl_adoptLane_freed {ls : List Lane} {t : LaneTable} {l : Lane} (hl : adoption win before l = none)
    (h : ∃ k ∈ ls, ∃ w, adoption win before k = some w ∧ t[l].owner = some w.addr) :
    (ls.foldl (adoptLane win before) t)[l] = .free := by
  induction ls generalizing t with
  | nil => simp at h
  | cons k ks ih =>
    rw [List.foldl_cons]
    by_cases hk : ∃ w, adoption win before k = some w ∧ t[l].owner = some w.addr
    · obtain ⟨w, hw, ho⟩ := hk
      have hkl : k ≠ l := by
        rintro rfl
        rw [hl] at hw
        cases hw
      have hfree := adoptLane_freed hkl hw ho
      rw [foldl_adoptLane_kept (fun _ => hl) fun j _ x _ => by rw [hfree]; exact nofun, hfree]
    · have hstep : (adoptLane win before t k)[l] = t[l] :=
        adoptLane_other (fun heq => heq ▸ hl) fun w hw ho => hk ⟨w, hw, ho⟩
      refine ih ?_
      obtain ⟨j, hj, w, hw, ho⟩ := h
      rcases List.mem_cons.mp hj with rfl | hj
      · exact absurd ⟨w, hw, ho⟩ hk
      · exact ⟨j, hj, w, hw, by rw [hstep, ho]⟩

/-- An adopted lane is HELD by its winner. -/
theorem foldl_adoptLane_adopted (hone : OneWinnerAnAddress win) {ls : List Lane} (hn : ls.Nodup) {t : LaneTable}
    {l : Lane} {w : Announcement} (hmem : l ∈ ls) (hw : adoption win before l = some w) :
    (ls.foldl (adoptLane win before) t)[l] = heldFrom w := by
  induction ls generalizing t with
  | nil => cases hmem
  | cons k ks ih =>
    obtain ⟨hk, hks⟩ := List.nodup_cons.mp hn
    rw [List.foldl_cons]
    rcases List.mem_cons.mp hmem with rfl | hmem
    · have hstep := adoptLane_self (t := t) hw
      rw [foldl_adoptLane_kept (fun h => absurd h hk), hstep]
      intro j hj x hx
      rw [hstep]
      intro heq
      have : l = j := hone l j w x (adoption_some hw).1 (adoption_some hx).1 (Option.some.inj heq)
      exact hk (this ▸ hj)
    · exact ih hks hmem

theorem repairTable_adopted (hone : OneWinnerAnAddress win) {t : LaneTable} {l : Lane} {w : Announcement}
    (hw : adoption win before l = some w) : (repairTable win before t)[l] = heldFrom w :=
  foldl_adoptLane_adopted hone (List.nodup_finRange 4) (List.mem_finRange l) hw

theorem repairTable_kept {t : LaneTable} {l : Lane} (hl : adoption win before l = none)
    (h : ∀ k w, adoption win before k = some w → t[l].owner ≠ some w.addr) :
    (repairTable win before t)[l] = t[l] :=
  foldl_adoptLane_kept (fun _ => hl) fun k _ => h k

theorem repairTable_freed {t : LaneTable} {k l : Lane} {w : Announcement} (hl : adoption win before l = none)
    (hw : adoption win before k = some w) (ho : t[l].owner = some w.addr) :
    (repairTable win before t)[l] = .free :=
  foldl_adoptLane_freed hl ⟨k, List.mem_finRange k, w, hw, ho⟩

end

/-! ## Follow mode (R116) -/

theorem followTable_get (d : Delivery) (win : Lane → Option Announcement) (before : LaneTable) (l : Lane) :
    (followTable d win before)[l] = followEntry d (win l) (repairTable win before before)[l] := ofFn_get _ l

theorem followEntry_free (d : Delivery) (w : Option Announcement) : followEntry d w .free = .free := rfl

theorem followEntry_winner {d : Delivery} {w : Announcement} {e : LaneEntry} {k : OwnerKind}
    (ho : e.owner = some w.addr) (hk : e.kind = some k) :
    followEntry d (some w) e = .held w.addr k w.age w.score w.idle := by
  unfold followEntry
  rw [ho, hk]
  exact if_pos rfl

theorem followEntry_none {d : Delivery} {e : LaneEntry} {o : Addr} {k : OwnerKind}
    (ho : e.owner = some o) (hk : e.kind = some k) :
    (d.peers[o].presence ≠ .missing → followEntry d none e = .free) ∧
    (d.peers[o].presence = .missing →
      (∀ age score idle, e = .held o k age score idle →
        followEntry d none e = .held o k (min 255 (age + 1)) score idle) ∧
      (∀ score idle, e = .granted o k score idle → followEntry d none e = .held o k 1 score idle)) := by
  refine ⟨fun h => ?_, fun h => ⟨fun age score idle he => ?_, fun score idle he => ?_⟩⟩
  · unfold followEntry
    rw [ho, hk]
    exact (if_neg nofun).trans (if_neg h)
  · subst he
    cases hk
    cases ho
    unfold followEntry
    simpa [LaneEntry.owner, LaneEntry.kind, satSucc] using h
  · subst he
    cases hk
    cases ho
    unfold followEntry
    have hm : d.peers[(o : Nat)].presence = .missing := h
    simp [LaneEntry.owner, LaneEntry.kind, LaneEntry.score, LaneEntry.idle, hm]

theorem kindOfRole_eq (r : Role) :
    kindOfRole r = if r = .keyed ∨ r = .chair then OwnerKind.priority else .auto := by
  cases r <;> rfl

/-- Settles O39. -/
theorem repairAdoptsAndFollowModeUpdates : Obligations.RepairAdoptsAndFollowModeUpdates := by
  intro win before d l hone kind freed t f
  refine ⟨fun w hw ho => ?_, fun w k hw ho hk => ?_, fun hnone hfreed => ?_, fun hnone hkept => ?_⟩
  · have ht : t[l] = heldFrom w := repairTable_adopted hone (adoption_iff.mpr ⟨hw, ho⟩)
    refine ⟨?_, ?_⟩
    · rw [ht, heldFrom, kindOfRole_eq]
    · rw [followTable_get, show (repairTable win before before)[l] = heldFrom w from ht, hw]
      exact followEntry_winner rfl rfl
  · have hnone : adoption win before l = none := by
      unfold adoption
      rw [hw]
      exact if_pos ho
    have ht : t[l] = before[l] := repairTable_kept hnone fun j x hx heq => by
      have haddr : w.addr = x.addr := Option.some.inj (ho.symm.trans heq)
      have hlj := hone l j w x hw (adoption_some hx).1 haddr
      rw [← hlj, hnone] at hx
      cases hx
    refine ⟨ht, ?_⟩
    rw [followTable_get, show (repairTable win before before)[l] = before[l] from ht, hw]
    exact followEntry_winner ho hk
  · have hno : adoption win before l = none := by
      unfold adoption
      rw [hnone]
    obtain ⟨k, w, -, hw, hbefore, ho⟩ := hfreed
    have ht : t[l] = .free := repairTable_freed hno (adoption_iff.mpr ⟨hw, hbefore⟩) ho
    refine ⟨ht, ?_⟩
    rw [followTable_get, show (repairTable win before before)[l] = .free from ht]
    exact followEntry_free _ _
  · have hno : adoption win before l = none := by
      unfold adoption
      rw [hnone]
    have ht : t[l] = before[l] := repairTable_kept hno fun k w hw heq => by
      obtain ⟨hwin, hbefore⟩ := adoption_some hw
      refine hkept ⟨k, w, ?_, hwin, hbefore, heq⟩
      rintro rfl
      rw [hno] at hw
      cases hw
    have hf : f[l] = followEntry d none before[l] := by
      rw [followTable_get, show (repairTable win before before)[l] = before[l] from ht, hnone]
    rw [hf]
    exact ⟨ht, fun h => by rw [h]; exact followEntry_free _ _, fun o k ho hk => followEntry_none ho hk⟩

end Sys2Proof.Machine

/-! SUPPORT. The bank arbiter (R10): what is granted in a time, and how long a read waits. -/

namespace Sys2Proof.Machine

/-! ## Access opportunities, one by one -/

theorem serve_of_le {limit t : Nat} (h : limit ≤ t) (rs : List BankRead) : serve limit t rs = rs := by
  cases rs with
  | nil => rfl
  | cons r rest =>
    have hg : t ≤ r.grantedAt t := le_max_left _ _
    exact if_neg (by omega)

theorem grantOne_read (n : Nat) (r : BankRead) (rest : List BankRead) :
    grantOne n (false, r :: rest) = (false, if 4 * r.due ≤ n then rest else r :: rest) := by
  simp only [grantOne, Bool.false_eq_true, if_false]
  split <;> rfl

/-- One more opportunity goes to the read that waits first, if it is raised by then (R10). -/
theorem serve_succ {n t : Nat} (ht : t ≤ n) (rs : List BankRead) :
    serve (n + 1) t rs = (grantOne n (false, serve n t rs)).2 := by
  induction rs generalizing t with
  | nil => rfl
  | cons r rest ih =>
    have hg : r.grantedAt t = max t (4 * r.due).toNat := rfl
    by_cases hearly : r.grantedAt t < n
    · rw [serve, serve, if_pos hearly, if_pos (by omega)]
      exact ih hearly
    · rw [serve, serve, if_neg hearly]
      by_cases hdue : 4 * r.due ≤ n
      · rw [if_pos (by omega), serve_of_le (by omega)]
        rw [grantOne_read, if_pos hdue]
      · rw [if_neg (by omega)]
        rw [grantOne_read, if_neg hdue]

/-- The opportunities granted one by one serve the reads in their order, after a write that waits (R10). -/
theorem grantAll_eq (n : Nat) (write : Bool) (rs : List BankRead) :
    grantAll n (write, rs) = (write && decide (n = 0), serve n write.toNat rs) := by
  induction n with
  | zero =>
    rw [serve_of_le (Nat.zero_le _)]
    simp [grantAll]
  | succ n ih =>
    have hlast : grantAll (n + 1) (write, rs) = grantOne n (grantAll n (write, rs)) := by
      simp [grantAll, List.range_succ]
    rw [hlast, ih]
    by_cases hwrite : write = true ∧ n = 0
    · obtain ⟨rfl, rfl⟩ := hwrite
      rw [serve_of_le (Nat.zero_le _), serve_of_le (show 0 + 1 ≤ true.toNat from le_refl 1)]
      rfl
    · have hle : write.toNat ≤ n := by
        cases write with
        | false => exact Nat.zero_le n
        | true => exact Nat.one_le_iff_ne_zero.mpr fun h => hwrite ⟨rfl, h⟩
      have hfree : (write && decide (n = 0)) = false := by simpa using hwrite
      rw [serve_succ hle, hfree]
      simp only [Nat.succ_ne_zero, decide_false, Bool.and_false]
      cases serve n write.toNat rs with
      | nil => rfl
      | cons r rest => rw [grantOne_read]

/-! ## Reads that are raised by now, and reads raised one at a time -/

/-- Reads raised by now are granted one an opportunity (R10). -/
theorem serve_raised {limit t : Nat} {rs : List BankRead} (h : ∀ r ∈ rs, r.due ≤ 0) (later : List BankRead) :
    serve limit t (rs ++ later) =
      if limit ≤ t + rs.length then rs.drop (limit - t) ++ later else serve limit (t + rs.length) later := by
  induction rs generalizing t with
  | nil =>
    split
    · next hle => simpa using serve_of_le hle later
    · rfl
  | cons r rest ih =>
    have hg : r.grantedAt t = t := by
      have := h r List.mem_cons_self
      simp only [BankRead.grantedAt, opportunities]
      omega
    rw [List.cons_append, serve, hg]
    split
    · next hlt =>
      rw [ih fun x hx => h x (List.mem_cons_of_mem _ hx), List.length_cons,
        show limit - t = limit - (t + 1) + 1 by omega, List.drop_succ_cons,
        show t + 1 + rest.length = t + (rest.length + 1) by omega]
    · next hge =>
      rw [if_pos (by rw [List.length_cons]; omega), show limit - t = 0 by omega]
      rfl

/-- Reads of one reader, raised by now, take as many opportunities as they are (R10). -/
theorem serveTime_raised {reader : Reader} (t : Nat) {rs : List BankRead}
    (h : ∀ r ∈ rs, r.reader = reader ∧ r.due ≤ 0) (hne : rs ≠ []) :
    serveTime reader t rs = t + rs.length := by
  induction rs generalizing t with
  | nil => exact absurd rfl hne
  | cons r rest ih =>
    obtain ⟨hreader, hdue⟩ := h r List.mem_cons_self
    have hg : r.grantedAt t = t := by
      simp only [BankRead.grantedAt, opportunities]
      omega
    rw [serveTime, if_pos hreader, hg, List.length_cons]
    cases rest with
    | nil => rfl
    | cons x rest =>
      rw [ih (t + 1) (fun y hy => h y (List.mem_cons_of_mem _ hy)) (by simp)]
      omega

/-- Reads raised at different times, the first of them after `t` opportunities, wait for no other (R10). -/
theorem serve_spaced {limit t : Nat} {rs : List BankRead} (hspaced : rs.Pairwise fun x y => x.due < y.due)
    (ht : ∀ r ∈ rs, (t : Int) ≤ 4 * r.due) : ∀ r ∈ serve limit t rs, (limit : Int) ≤ 4 * r.due := by
  induction rs generalizing t with
  | nil => exact fun r hr => nomatch hr
  | cons x rest ih =>
    obtain ⟨hx, hrest⟩ := List.pairwise_cons.mp hspaced
    have hxt := ht x List.mem_cons_self
    have hg : x.grantedAt t = max t (4 * x.due).toNat := rfl
    rw [serve]
    split
    · exact ih hrest fun y hy => by
        have := hx y hy
        omega
    · intro r hr
      rcases List.mem_cons.mp hr with rfl | hr
      · omega
      · have := hx r hr
        omega

/-! ## Where reads join -/

theorem insertRead_front (first : Bool) {r : BankRead} (rs : List BankRead) {later : List BankRead}
    (h : ∀ x ∈ later, r.due < x.due) : insertRead first r (rs ++ later) = insertRead first r rs ++ later := by
  induction rs with
  | nil =>
    cases later with
    | nil => rfl
    | cons x rest =>
      have := h x List.mem_cons_self
      refine if_pos ?_
      split <;> omega
  | cons x rest ih =>
    simp only [List.cons_append, insertRead, ih]
    by_cases hc : if first then r.due ≤ x.due else r.due < x.due
    · rw [if_pos hc, if_pos hc]
      rfl
    · rw [if_neg hc, if_neg hc]
      rfl

theorem insertRead_back (first : Bool) {r : BankRead} {rs : List BankRead}
    (h : ∀ x ∈ rs, x.due ≤ r.due ∧ (first = true → x.due < r.due)) : insertRead first r rs = rs ++ [r] := by
  induction rs with
  | nil => rfl
  | cons x rest ih =>
    obtain ⟨hle, hlt⟩ := h x List.mem_cons_self
    have hlate : ¬ (if first then r.due ≤ x.due else r.due < x.due) := by
      split
      · next hfirst => exact not_le.mpr (hlt hfirst)
      · exact not_lt.mpr hle
    rw [insertRead, if_neg hlate, ih fun y hy => h y (List.mem_cons_of_mem _ hy)]
    rfl

/-- Reads raised after all that wait join behind them, in their order (R10). -/
theorem insertReads_later (first : Bool) {new old : List BankRead}
    (hnew : new.Pairwise fun x y => x.due < y.due) (h : ∀ x ∈ old, ∀ y ∈ new, x.due < y.due) :
    insertReads first new old = old ++ new := by
  cases first with
  | true =>
    change new.foldr (insertRead true) old = old ++ new
    induction new with
    | nil => exact (List.append_nil old).symm
    | cons r rest ih =>
      obtain ⟨hr, hrest⟩ := List.pairwise_cons.mp hnew
      rw [List.foldr_cons, ih hrest fun x hx y hy => h x hx y (List.mem_cons_of_mem _ hy),
        insertRead_front true old hr, insertRead_back true fun x hx => ⟨(h x hx r List.mem_cons_self).le, fun _ => h x hx r List.mem_cons_self⟩,
        List.append_assoc]
      rfl
  | false =>
    change new.foldl (fun l r => insertRead false r l) old = old ++ new
    induction new generalizing old with
    | nil => exact (List.append_nil old).symm
    | cons r rest ih =>
      obtain ⟨hr, hrest⟩ := List.pairwise_cons.mp hnew
      rw [List.foldl_cons, insertRead_back false fun x hx => ⟨(h x hx r List.mem_cons_self).le, nofun⟩, ih hrest,
        List.append_assoc]
      · rfl
      · intro x hx y hy
        rcases List.mem_append.mp hx with hx | hx
        · exact h x hx y (List.mem_cons_of_mem _ hy)
        · rw [List.mem_singleton.mp hx]
          exact hr y hy

/-- Of reads that are raised one after another the first may go before what waits, the others join behind. -/
theorem insertReads_first (first : Bool) {r : BankRead} {rest old : List BankRead}
    (hnew : (r :: rest).Pairwise fun x y => x.due < y.due) (h : ∀ x ∈ old, ∀ y ∈ rest, x.due < y.due) :
    insertReads first (r :: rest) old = insertRead first r old ++ rest := by
  obtain ⟨hr, hrest⟩ := List.pairwise_cons.mp hnew
  cases first with
  | true =>
    have hjoin : rest.foldr (insertRead true) old = old ++ rest := insertReads_later true hrest h
    change insertRead true r (rest.foldr (insertRead true) old) = _
    rw [hjoin]
    exact insertRead_front true old hr
  | false =>
    refine insertReads_later false (old := insertRead false r old) hrest fun x hx y hy => ?_
    rcases List.mem_cons.mp ((insertRead_perm false r old).mem_iff.mp hx) with rfl | hx
    · exact hr y hy
    · exact h x hx y hy

/-- Reads raised at one instant, with none before them, wait in their order (R10). -/
theorem insertReads_alone (first : Bool) {due : Int} {new : List BankRead} (h : ∀ x ∈ new, x.due = due) :
    insertReads first new [] = new := by
  cases first with
  | true =>
    change new.foldr (insertRead true) [] = new
    induction new with
    | nil => rfl
    | cons r rest ih =>
      rw [List.foldr_cons, ih fun x hx => h x (List.mem_cons_of_mem _ hx)]
      cases rest with
      | nil => rfl
      | cons x rest => exact if_pos (by simp [h r, h x])
  | false =>
    suffices hgen : ∀ old : List BankRead, (∀ x ∈ old, x.due = due) →
        new.foldl (fun l r => insertRead false r l) old = old ++ new from hgen [] (by simp)
    induction new with
    | nil => exact fun old _ => (List.append_nil old).symm
    | cons r rest ih =>
      intro old hold
      have hr := h r List.mem_cons_self
      rw [List.foldl_cons, insertRead_back false fun x hx => ⟨by rw [hold x hx, hr], nofun⟩,
        ih (fun x hx => h x (List.mem_cons_of_mem _ hx)), List.append_assoc]
      · rfl
      · intro x hx
        rcases List.mem_append.mp hx with hx | hx
        · exact hold x hx
        · rw [List.mem_singleton.mp hx, hr]

/-! ## The two bounds (R10) -/

theorem transmitterReads_spaced (slot : Fin 4) :
    (transmitterReads slot).Pairwise fun x y => x.due < y.due := by
  refine List.pairwise_map.mpr ((List.pairwise_lt_finRange 64).imp fun {i j} h => ?_)
  have hlt : i.val < j.val := h
  simp only [requestTime, Fin.ext_iff, Fin.val_zero]
  split <;> split <;> omega

/-- Sample 0 of an own lane frame is requested at once, each later one after the header (R10). -/
theorem transmitterReads_split (slot : Fin 4) : ∃ r rest, transmitterReads slot = r :: rest ∧ r.due = 0 ∧
    ∀ x ∈ rest, 24 ≤ x.due := by
  refine ⟨{ reader := .transmitter, slot := slot, position := 0, due := 0 }, (transmitterReads slot).tail, rfl,
    rfl, fun x hx => ?_⟩
  have hpos : 0 < x.due :=
    (List.pairwise_cons.mp (show List.Pairwise _ (_ :: (transmitterReads slot).tail) from
      transmitterReads_spaced slot)).1 x hx
  have hdue := (mem_transmitterReads.mp (List.mem_of_mem_tail hx)).2.2
  unfold requestTime at hdue
  split at hdue <;> omega

/-- With no detector read before it the 64 requests of a frame completion stand alone (R10). -/
theorem Arbiter.raiseDetector_alone {a : Arbiter} (first : Bool) (slot : Fin 4)
    (ha : ∀ r ∈ a.reads, r.reader = .transmitter) :
    (a.endTransmitter.raiseWrite.raiseDetector first slot).reads = detectorReads slot := by
  have hnone : a.endTransmitter.reads = [] :=
    List.eq_nil_iff_forall_not_mem.mpr fun r hr =>
      (Arbiter.mem_endTransmitter.mp hr).2 (ha r (Arbiter.mem_endTransmitter.mp hr).1)
  change insertReads first (detectorReads slot) a.endTransmitter.reads = _
  rw [hnone]
  exact insertReads_alone first fun x hx => (mem_detectorReads.mp hx).2.2

theorem detectorReads_length (slot : Fin 4) : (detectorReads slot).length = 64 := by
  simp [detectorReads]

/-- What waits after the transmitter's requests join: at most 65 reads that are raised by now, then the later
requests of the transmitter (R10). -/
theorem Arbiter.raiseTransmitter_split {a : Arbiter} (first : Bool) (slot : Fin 4)
    (hdue : ∀ r ∈ a.reads, r.reader = .detector → r.due ≤ 0)
    (hlen : (a.reads.filter fun r => r.reader = .detector).length ≤ 64) :
    ∃ raised later, (a.endTransmitter.raiseTransmitter first slot).reads = raised ++ later ∧
      raised.length ≤ 65 ∧ (∀ r ∈ raised, r.due ≤ 0) ∧ (later.Pairwise fun x y => x.due < y.due) ∧
      ∀ r ∈ later, 24 ≤ r.due := by
  obtain ⟨r, rest, hsplit, hr, hrest⟩ := transmitterReads_split slot
  have hold : ∀ x ∈ a.endTransmitter.reads, x.due ≤ 0 := fun x hx => by
    obtain ⟨hx, hreader⟩ := Arbiter.mem_endTransmitter.mp hx
    refine hdue x hx ?_
    cases hx' : x.reader with
    | detector => rfl
    | transmitter => exact absurd hx' hreader
  have hspaced := hsplit ▸ transmitterReads_spaced slot
  have hperm := insertRead_perm first r a.endTransmitter.reads
  refine ⟨insertRead first r a.endTransmitter.reads, rest, ?_, ?_, fun x hx => ?_,
    (List.pairwise_cons.mp hspaced).2, hrest⟩
  · change insertReads first (transmitterReads slot) a.endTransmitter.reads = _
    rw [hsplit]
    exact insertReads_first first hspaced fun x hx y hy => by
      have := hold x hx
      have := hrest y hy
      omega
  · have hsame : a.endTransmitter.reads = a.reads.filter fun r => r.reader = .detector :=
      List.filter_congr fun x _ => by cases x.reader <;> rfl
    rw [hperm.length_eq, List.length_cons, hsame]
    omega
  · rcases List.mem_cons.mp (hperm.mem_iff.mp hx) with rfl | hx
    · exact hr.le
    · exact hold x hx

/-- A read that waits after `limit` opportunities was raised at most 65 of them before, when at most 65 reads
go before those that are raised one at a time after the header (R10). -/
theorem serve_wait {limit t : Nat} {raised later : List BankRead} (ht : t ≤ 1) (hlen : raised.length ≤ 65)
    (hraised : ∀ r ∈ raised, r.due ≤ 0) (hspaced : later.Pairwise fun x y => x.due < y.due)
    (hlater : ∀ r ∈ later, 24 ≤ r.due) :
    ∀ r ∈ serve limit t (raised ++ later), 0 ≤ r.due → (limit : Int) ≤ 4 * r.due + 66 := by
  intro r hr hdue
  rw [serve_raised hraised] at hr
  split at hr
  · omega
  · have := serve_spaced hspaced (t := t + raised.length) (fun x hx => by have := hlater x hx; omega) r hr
    omega

/-- Settles O9. -/
theorem arbiterGrantsWithinTheBounds : Obligations.ArbiterGrantsWithinTheBounds := by
  refine ⟨fun n a => ?_, fun first slot a ha => ?_, fun first slot a n hdue hlen r hr hreader => ?_⟩
  · intro left
    have hleft : left = (a.write && decide (4 * n = 0), serve (4 * n) a.write.toNat a.reads) :=
      grantAll_eq (4 * n) a.write a.reads
    rw [hleft]
    simp [Arbiter.elapse, opportunities]
  · intro b
    have hreads : b.reads = detectorReads slot := Arbiter.raiseDetector_alone first slot ha
    have hraised : ∀ r ∈ detectorReads slot, r.reader = .detector ∧ r.due ≤ 0 := fun r hr =>
      ⟨(mem_detectorReads.mp hr).1, (mem_detectorReads.mp hr).2.2.le⟩
    have hne : detectorReads slot ≠ [] := List.ne_nil_of_length_pos (by rw [detectorReads_length]; omega)
    have hwrite : b.write = true := rfl
    refine ⟨hwrite, by rw [hreads, detectorReads_length], fun i => ?_, ?_, ?_⟩
    · rw [hreads]
      simp [detectorReads]
    · have hserve := serve_raised (limit := 65) (t := 1) (fun r hr => (hraised r hr).2) []
      rw [detectorReads_length, List.append_nil, if_pos (by omega)] at hserve
      rw [grantAll_eq, hwrite, hreads]
      exact hserve.trans (by simp [List.drop_eq_nil_iff, detectorReads_length])
    · rw [Arbiter.detectorWait, hwrite, hreads, serveTime_raised _ hraised hne, detectorReads_length]
      rfl
  · obtain ⟨raised, later, hreads, hlen, hraised, hspaced, hlater⟩ :=
      Arbiter.raiseTransmitter_split first slot hdue hlen
    obtain ⟨x, hx, rfl⟩ := List.mem_map.mp hr
    rw [hreads] at hx
    have hmem : x ∈ (a.endTransmitter.raiseTransmitter first slot).reads := hreads ▸ (serve_suffix _ _ _).mem hx
    have hx0 : 0 ≤ x.due := by
      rcases mem_insertReads.mp hmem with hnew | hold
      · rw [(mem_transmitterReads.mp hnew).2.2]
        unfold requestTime
        split <;> omega
      · exact absurd hreader (Arbiter.mem_endTransmitter.mp hold).2
    have := serve_wait (Bool.toNat_le _) hlen hraised hspaced hlater x hx hx0
    simp only [opportunities] at this
    dsimp only
    omega

end Sys2Proof.Machine

/-! SUPPORT. The census close outside a rejoin: what the lane manager acts on, and the table that it leaves. -/

namespace Sys2Proof.Machine

/-! ## The winners (R110, R111) -/

section
variable {before : LaneTable}

theorem winner_announcements_one {m : Nat} {sync : SyncState} {voided : Option Addr} {d : Delivery} :
    OneWinnerAnAddress (winner m (announcements sync voided d)) := by
  intro j k x y hx hy haddr
  obtain ⟨-, hxmem, rfl⟩ := winner_some hx
  obtain ⟨-, hymem, rfl⟩ := winner_some hy
  have hxa := mem_announcements_addr.mp hxmem
  rw [haddr, mem_announcements_addr.mp hymem] at hxa
  cases hxa
  rfl

theorem State.winners_one (s : State) : OneWinnerAnAddress s.winners := winner_announcements_one

/-- ENTERING and LOCKED count the announcements alike; so do all sync states but INCOMPATIBLE (R110). -/
theorem announcements_sync {sync sync' : SyncState} (h : sync ≠ .incompatible) (h' : sync' ≠ .incompatible)
    (voided : Option Addr) (d : Delivery) : announcements sync voided d = announcements sync' voided d := by
  have hann : announces sync = announces sync' := funext fun p => by
    rw [Bool.eq_iff_iff, announces_iff, announces_iff]
    simp [h, h']
  unfold announcements announcementOf
  rw [hann]

/-! ## Stage 1 after the own lane is cut (R114) -/

theorem lostToRepair_iff {win : Lane → Option Announcement} {own : Addr} : lostToRepair win before own = true ↔
    ∃ l w, before.laneOf own = some l ∧ adoption win before l = some w := by
  unfold lostToRepair
  cases before.laneOf own with
  | none => simp
  | some l => simp [Option.isSome_iff_exists]

theorem adoptLane_congr {win : Lane → Option Announcement} {t u : LaneTable} {l : Lane} (h : t[l] = u[l])
    (k : Lane) : (adoptLane win before t k)[l] = (adoptLane win before u k)[l] := by
  unfold adoptLane
  split
  · rw [adopt, adopt, put_get, put_get, LaneTable.without_get, LaneTable.without_get, h]
  · exact h

/-- Stage 1 treats each lane by itself. -/
theorem repairTable_congr {win : Lane → Option Announcement} {t u : LaneTable} {l : Lane} (h : t[l] = u[l]) :
    (repairTable win before t)[l] = (repairTable win before u)[l] := by
  rw [repairTable_eq_foldl, repairTable_eq_foldl]
  generalize List.finRange 4 = ls
  induction ls generalizing t u with
  | nil => exact h
  | cons k ks ih => exact ih (adoptLane_congr h k)

/-- An own lane that stage 1 adopts is written by the adoption, whether it was cut before or not (R113,
R114). -/
theorem repairTable_without {m : Nat} {win : Lane → Option Announcement} {own : Addr}
    (hone : OneWinnerAnAddress win) (hlegal : before.Legal m) (hlost : lostToRepair win before own = true) :
    repairTable win before (before.without own) = repairTable win before before := by
  obtain ⟨l, w, hl, hw⟩ := lostToRepair_iff.mp hlost
  refine vector_ext_fin fun j => ?_
  by_cases hown : before[j].owner = some own
  · obtain rfl := hlegal.single j l own hown (LaneTable.laneOf_some hl)
    rw [repairTable_adopted hone hw, repairTable_adopted hone hw]
  · exact repairTable_congr (by rw [LaneTable.without_get, if_neg hown])

/-- The stages 2, 6 and 7 run on what stage 1 makes of the table before the census close. -/
theorem State.elected_eq {s : State} (h : s.lanes.table.Legal s.laneCount) :
    s.elected = elect s.keys.straps.policy s.delivery (repairTable s.winners s.lanes.table s.lanes.table) := by
  unfold State.elected State.repaired
  split
  · next hlost =>
    rw [State.cutOwnLane_table, repairTable_without s.winners_one h hlost]
  · rfl

theorem State.election_elected (s : State) : s.election.1.lanes.table = s.elected.after7 := by
  rw [State.election_eq]
  simp only [State.settleOwn_lanes_table, State.decided, State.ownerSide_lanes_table, State.compared]
  split
  · rw [State.compareDigests_lanes_table]
    rfl
  · rfl

end

/-! ## The election in two nodes (R90) -/

theorem State.lanesAtCensus_elects {s : State} (h : s.beat.sync = .entering ∨ s.beat.sync = .locked) (c : Bool) :
    s.lanesAtCensus c = s.election := by
  unfold State.lanesAtCensus
  rcases h with h | h <;> simp only [h]

/-- Settles O44: what the stages see of a node does not name its own address. -/
theorem equalNodesElectEqualTables : Obligations.EqualNodesElectEqualTables := by
  intro s t hs ht hm hpolicy hentries hpeers htable hlegal hscut htcut
  have hd : s.delivery = t.delivery := by
    unfold State.delivery
    rw [hentries, hpeers, hm]
  have hne : ∀ {x : SyncState}, x = .entering ∨ x = .locked → x ≠ .incompatible := by
    rintro x (rfl | rfl) <;> decide
  have hwin : s.winners = t.winners := by
    unfold State.winners
    rw [hscut, htcut, hd, hm, announcements_sync (hne hs) (hne ht)]
    rfl
  have helected : s.elected = t.elected := by
    rw [State.elected_eq hlegal, State.elected_eq (htable ▸ hm ▸ hlegal), hpolicy, hd, hwin, htable]
  have hsame : s.election.1.lanes.table = t.election.1.lanes.table := by
    rw [State.election_elected, State.election_elected, helected]
  rw [State.lanesAtCensus_elects hs, State.lanesAtCensus_elects ht, State.election_digest, State.election_digest,
    hsame]
  exact ⟨rfl, rfl⟩

end Sys2Proof.Machine

/-! SUPPORT. The census close outside a rejoin, block by block, and the lane table that it leaves. -/

namespace Sys2Proof.Machine

/-! ## The census close and the rejoin on divergence (R74, R122) -/

section
variable {s : State}

theorem SyncState.receives_iff {x : SyncState} : x.receives = true ↔ x ≠ .listen ∧ x ≠ .aligning := by
  cases x <;> simp [SyncState.receives]

theorem exec_censusClose_receives (hr : s.inReset = false) (hsync : s.beat.sync.receives = true) :
    exec .censusClose s = .next (s.elapseTo 1600).censusClose := by
  refine congrArg Host.Outcome.next ?_
  rw [if_neg (by simp [hr])]
  exact if_pos hsync

/-- The records of a census close, without those of a rejoin (R165). -/
def State.closeRecords (s : State) : List RecordBody :=
  peerRecords s.own s.census.peers s.closeCensus.census.peers ++ s.beatClosed.2 ++ s.lanesClosed.2

/-- A census close that does not lead to LISTEN ends with the lane manager. -/
theorem State.censusClose_stays (h : s.censusClose.beat.sync ≠ .listen) :
    s.censusClose = s.lanesClosed.1.raise s.closeRecords := by
  rcases s.lanesClosed.1.rejoinIfDiverged_cases with ⟨-, hr⟩ | ⟨-, hr⟩
  · have hsync : s.censusClose.beat.sync = s.lanesClosed.1.rejoinIfDiverged.1.beat.sync := by
      rw [State.censusClose_eq]
      rfl
    rw [hsync, hr, State.rejoin_beat_sync] at h
    exact absurd rfl h
  · rw [State.censusClose_eq, hr, List.append_nil]
    rfl

theorem State.ownerSide_divergence (b : LaneTable) (lost m : Bool) (r : ElectionResult) (s : State) :
    (s.ownerSide b lost m r).1.lanes.divergence = s.lanes.divergence := by
  simp

theorem State.election_divergence (s : State) :
    s.election.1.lanes.divergence = s.compared.1.lanes.divergence := by
  rw [State.election_eq]
  simp [State.decided]

theorem State.cutOwnLane_divergence (g : GateReason) (s : State) :
    (s.cutOwnLane g).1.lanes.divergence = s.lanes.divergence := by
  simp

theorem State.repaired_divergence (s : State) : s.repaired.1.lanes.divergence = s.lanes.divergence := by
  unfold State.repaired
  split <;> simp

/-- The divergence counter at the end of the digest comparison (R119, R120). -/
theorem State.compared_divergence (s : State) : s.compared.1.lanes.divergence =
    if s.beat.sync = .locked ∧ isDivergent s.own s.delivery s.lanes.digest = true then s.lanes.divergence + 1
    else 0 := by
  have hown : (s.repaired.1.setTable s.elected.after7).own = s.own := by
    unfold State.repaired
    split
    · exact State.cutOwnLane_own _ _
    · rfl
  unfold State.compared
  by_cases hlocked : s.beat.sync = .locked
  · rw [if_pos hlocked, State.compareDigests, hown]
    by_cases hd : isDivergent s.own s.delivery s.lanes.digest = true
    · rw [if_pos hd]
      exact (congrArg (· + 1) s.repaired_divergence).trans (if_pos ⟨hlocked, hd⟩).symm
    · rw [if_neg hd]
      exact (if_neg fun h => hd h.2).symm
  · rw [if_neg hlocked, if_neg fun h => hlocked h.1]

theorem State.lanesAtCensus_follows (h : s.beat.sync.receives = true) (hsync : s.beat.sync ≠ .entering)
    (hsync' : s.beat.sync ≠ .locked) : s.lanesAtCensus false = s.follow := by
  unfold State.lanesAtCensus
  split <;> simp_all <;> cases h

theorem State.lanesAtCensus_conflict (h : s.beat.sync = .conflict) : s.lanesAtCensus true =
    (s.conflictEntry.1.follow.1, s.conflictEntry.2.1 ++ s.conflictEntry.1.follow.2 ++ s.conflictEntry.2.2) := by
  unfold State.lanesAtCensus
  simp only [h]
  rfl

/-! ## The beat unit's decisions (R55 to R58) -/

theorem State.slotConflict_iff : s.slotConflict = true ↔
    s.beat.sync.reports = true ∧ s.census.readback = some .collision ∧ 1 ≤ s.census.ownCollisions := by
  unfold State.slotConflict ownSlotCollisions
  split
  · next hr =>
    split
    · next hb => simp [hb]
    · next hb =>
      split
      · next hlt => simp only [hr, hb]; simp; omega
      · next hlt => simp only [hr, hb]; simp; omega
    · next hb => simp [hb]
  · next hr => simp [hr]

theorem State.beatClosed_sync_receives (h : s.beat.sync.receives = true) :
    s.beatClosed.1.beat.sync.receives = true := State.beatAtCensus_receives h

theorem State.enter_sync (s : State) : s.enter.1.beat.sync = s.beat.sync ∨ s.enter.1.beat.sync = .locked ∨
    s.enter.1.beat.sync = .incompatible := by
  unfold State.enter State.becomeLocked State.changeSync
  extract_lets mismatch
  split
  · exact .inr (.inr rfl)
  · split
    · split
      · exact .inl rfl
      · exact .inr (.inl rfl)
    · exact .inl rfl
    · exact .inl rfl

/-- The beat unit enters CONFLICT on an own-slot conflict only (R58). -/
theorem State.beatAtCensus_false_conflict (h : (s.beatAtCensus false).1.beat.sync = .conflict) :
    s.beat.sync = .conflict := by
  have hmoves := s.beatAtCensus_moves false
  cases hs : s.beat.sync with
  | conflict => rfl
  | entering =>
    have henter : (s.beatAtCensus false).1.beat.sync = s.enter.1.beat.sync := by
      unfold State.beatAtCensus
      simp only [hs]
      rfl
    rcases s.enter_sync with he | he | he <;> simp_all
  | locked =>
    rw [State.beatAtCensus_locked hs] at h
    cases h
  | listen | aligning | observing | incompatible => simp [SyncState.mayBecome, hs, h] at hmoves

theorem State.beatAtCensus_true (h : s.beat.sync.reports = true) : s.beatAtCensus true = s.enterConflict := by
  unfold State.beatAtCensus
  split <;> simp_all [SyncState.reports]

/-- The node enters CONFLICT at a census close exactly on an own-slot conflict (R58, R71). -/
theorem State.slotConflict_iff_enters :
    s.slotConflict = true ↔ s.beatClosed.1.beat.sync = .conflict ∧ s.beat.sync ≠ .conflict := by
  constructor
  · intro hc
    have hrep := (State.slotConflict_iff.mp hc).1
    refine ⟨?_, fun h => by rw [h] at hrep; cases hrep⟩
    rw [State.beatClosed, hc, State.beatAtCensus_true (s := s.closeCensus) hrep]
    rfl
  · rintro ⟨hb, hs⟩
    by_contra hc
    rw [State.beatClosed, Bool.eq_false_iff.mpr hc] at hb
    exact hs (State.beatAtCensus_false_conflict (s := s.closeCensus) hb)

/-- What the beat unit's decisions move (R55 to R59, R80, R156). -/
theorem State.beatAtCensus_frame (c : Bool) (s : State) : (s.beatAtCensus c).1 = { s with
    beat := { s.beat with
      sync := (s.beatAtCensus c).1.beat.sync, holder := (s.beatAtCensus c).1.beat.holder
      rank := (s.beatAtCensus c).1.beat.rank, candidate := (s.beatAtCensus c).1.beat.candidate
      holderCond := (s.beatAtCensus c).1.beat.holderCond, obsCount := (s.beatAtCensus c).1.beat.obsCount
      entCount := (s.beatAtCensus c).1.beat.entCount }
    census := { s.census with
      peers := (s.beatAtCensus c).1.census.peers, ownCollisions := (s.beatAtCensus c).1.census.ownCollisions
      conflictWait := (s.beatAtCensus c).1.census.conflictWait }
    keys := (s.beatAtCensus c).1.keys } := by
  unfold State.beatAtCensus State.observe State.recheck State.waitConflict State.enter State.enterConflict
    State.becomeLocked State.changeSync
  dsimp only
  repeat' (first | rfl | split)

theorem SyncRaises.stays {old new : SyncState} {holder : Option Addr} (h : new = old) :
    SyncRaises old new holder [] :=
  ⟨fun _ => rfl, fun hne => absurd h hne⟩

theorem SyncRaises.changes {old new : SyncState} {reason : SyncReason} {holder : Option Addr} (hne : new ≠ old)
    (h : (new = .conflict → reason = .slotConflict) ∧ (new = .incompatible → reason = .mismatch) ∧
      (new = .entering → reason = .fingerprintOk) ∧ (new = .locked → reason = .entered) ∧
      (new = .observing → old = .incompatible → reason = .matched) ∧
      (new = .observing → old = .conflict → reason = .waitEnded)) :
    SyncRaises old new holder [.sync new reason holder] :=
  ⟨fun heq => absurd heq hne, fun _ => ⟨reason, rfl, h⟩⟩

theorem State.observe_raises (h : s.beat.sync = .observing) :
    SyncRaises .observing s.observe.1.beat.sync s.observe.1.beat.holder s.observe.2 := by
  unfold State.observe State.changeSync
  dsimp only
  repeat' split
  · exact .stays h
  · exact .stays h
  · exact .changes (new := .entering) (by decide) (by decide)
  · exact .changes (new := .incompatible) (by decide) (by decide)

theorem State.recheck_raises (h : s.beat.sync = .incompatible) :
    SyncRaises .incompatible s.recheck.1.beat.sync s.recheck.1.beat.holder s.recheck.2 := by
  unfold State.recheck State.changeSync
  dsimp only
  repeat' split
  · exact .stays h
  · exact .changes (new := .observing) (by decide) (by decide)
  · exact .stays h

theorem State.waitConflict_raises (h : s.beat.sync = .conflict) :
    SyncRaises .conflict s.waitConflict.1.beat.sync s.waitConflict.1.beat.holder s.waitConflict.2 := by
  unfold State.waitConflict State.changeSync
  dsimp only
  split
  · exact .changes (new := .observing) (by decide) (by decide)
  · exact .stays h

theorem State.enter_raises (h : s.beat.sync = .entering) :
    SyncRaises .entering s.enter.1.beat.sync s.enter.1.beat.holder s.enter.2 := by
  unfold State.enter State.becomeLocked State.changeSync
  extract_lets mismatch
  split
  · exact .changes (new := .incompatible) (by decide) (by decide)
  · split
    · split
      · exact .stays h
      · exact .changes (new := .locked) (by decide) (by decide)
    · exact .stays h
    · exact .stays h

/-- The SYNC record of the beat unit's decisions (R47). -/
theorem State.beatAtCensus_raises (c : Bool) (s : State) :
    SyncRaises s.beat.sync (s.beatAtCensus c).1.beat.sync (s.beatAtCensus c).1.beat.holder
      (s.beatAtCensus c).2 := by
  unfold State.beatAtCensus
  split
  · next h => rw [h]; exact State.observe_raises h
  · next h => rw [h]; exact State.recheck_raises h
  · next h => rw [h]; exact State.waitConflict_raises h
  · next h =>
    rw [h]
    split
    · exact .changes (new := .conflict) (by decide) (by decide)
    · exact State.enter_raises h
  · next h =>
    rw [h]
    split
    · exact .changes (new := .conflict) (by decide) (by decide)
    · exact .stays h
  · exact .stays rfl
  · exact .stays rfl

end

end Sys2Proof.Machine

/-! SUPPORT. The lane table that a census close leaves. -/

namespace Sys2Proof.Machine

/-! ## Follow mode at the entry into CONFLICT (R106, R116) -/

theorem LaneEntry.kind_of_owner {e : LaneEntry} {a : Addr} (h : e.owner = some a) : ∃ k, e.kind = some k := by
  cases e with
  | free => cases h
  | granted o k => exact ⟨k, rfl⟩
  | held o k => exact ⟨k, rfl⟩

/-- An ABSENT address announces nothing, voided or not (R110). -/
theorem announcements_voided {sync : SyncState} {voided : Option Addr} {d : Delivery}
    (h : ∀ a, voided = some a → d.peers[a].presence = .absent) :
    announcements sync voided d = announcements sync none d := by
  unfold announcements
  refine List.filterMap_congr fun a _ => ?_
  by_cases ha : voided = some a
  · have hnone : announces sync d.peers[a].presence = false := by
      rw [h a ha]
      rfl
    unfold announcementOf
    rw [hnone]
    simp
  · unfold announcementOf
    have hne : (voided == some a) = false := by simpa using ha
    rw [hne]
    rfl

section
variable {win : Lane → Option Announcement} {before : LaneTable} {own : Addr}

theorem adoption_without (hwin : ∀ l w, win l = some w → w.addr ≠ own) :
    adoption win (before.without own) = adoption win before := by
  funext l
  unfold adoption
  cases hw : win l with
  | none => rfl
  | some w =>
    dsimp only
    rw [LaneTable.without_get]
    split
    · next ho =>
      have hne : some own ≠ some w.addr := fun h => hwin l w hw (Option.some.inj h).symm
      rw [ho, if_neg hne]
      exact if_neg nofun
    · rfl

/-- Follow mode frees the lane of an ABSENT address, cut before or not (R106, R116). -/
theorem followTable_without {d : Delivery} (hone : OneWinnerAnAddress win)
    (hwin : ∀ l w, win l = some w → w.addr ≠ own)
    (habsent : d.peers[own].presence = .absent) :
    followTable d win (before.without own) = followTable d win before := by
  have hrepair : repairTable win (before.without own) (before.without own) =
      repairTable win before (before.without own) := by
    unfold repairTable
    rw [adoption_without hwin]
  refine vector_ext_fin fun j => ?_
  rw [followTable_get, followTable_get, hrepair]
  by_cases hown : before[j].owner = some own
  case neg =>
    have hsame : (before.without own)[j] = before[j] := by rw [LaneTable.without_get, if_neg hown]
    rw [repairTable_congr hsame]
  have hne : ∀ l w, win l = some w → before[j].owner ≠ some w.addr := fun l w hw h =>
    hwin l w hw (Option.some.inj (hown.symm.trans h)).symm
  cases hw : win j with
  | none =>
    have hj : adoption win before j = none := by
      unfold adoption
      rw [hw]
    have hcut : (before.without own)[j] = .free := by rw [LaneTable.without_get, if_pos hown]
    have hfree : (repairTable win before (before.without own))[j] = .free := by
      rw [repairTable_kept hj fun k x _ => by rw [hcut]; exact nofun, hcut]
    have hkept : (repairTable win before before)[j] = before[j] :=
      repairTable_kept hj fun k x hx => hne k x (adoption_some hx).1
    obtain ⟨k, hk⟩ := LaneEntry.kind_of_owner hown
    rw [hkept, hfree, followEntry_free, (followEntry_none hown hk).1 fun h => by rw [habsent] at h; cases h]
  | some w =>
    have hj := adoption_iff.mpr ⟨hw, hne j w hw⟩
    rw [repairTable_adopted hone hj, repairTable_adopted hone hj]

end

/-! ## The state that the lane manager acts on -/

section
variable {s : State}

theorem State.beatClosed_own (s : State) : s.beatClosed.1.own = s.own := State.beatAtCensus_own _ _

theorem State.beatClosed_laneCount (s : State) : s.beatClosed.1.laneCount = s.laneCount :=
  State.beatAtCensus_laneCount _ _

theorem State.beatClosed_lanes (s : State) : s.beatClosed.1.lanes = s.lanes := State.beatAtCensus_lanes _ _

theorem State.beatClosed_entries (s : State) : s.beatClosed.1.census.entries = s.census.entries :=
  State.beatAtCensus_census_entries _ _

theorem State.beatClosed_straps (s : State) : s.beatClosed.1.keys.straps = s.keys.straps :=
  State.beatAtCensus_keys_straps _ _

/-- What a census close without a rejoin leaves of beat unit and census unit. -/
structure State.ClosesTo (s t : State) : Prop where
  beat   : t.beat = s.beatClosed.1.beat
  census : t.census = s.beatClosed.1.census

theorem State.lanesClosed_closesTo (s : State) (bs : List RecordBody) : s.ClosesTo (s.lanesClosed.1.raise bs) :=
  ⟨s.lanesClosed_beat, State.lanesAtCensus_census _ _⟩

theorem State.delivery_of_closesTo {t : State} (h : s.ClosesTo t) : s.beatClosed.1.delivery =
    { entries := s.census.entries, peers := t.census.peers, m := s.laneCount } := by
  rw [State.delivery, s.beatClosed_entries, s.beatClosed_laneCount, h.census]

theorem State.winners_of_closesTo {t : State} (h : s.ClosesTo t) : s.beatClosed.1.winners = s.winnersAt t := by
  rw [State.winners, State.delivery_of_closesTo h, s.beatClosed_laneCount, s.beatClosed_lanes, s.beatClosed_own,
    State.winnersAt, h.beat]

theorem State.lost_of_closesTo {t : State} (h : s.ClosesTo t) : s.beatClosed.1.losesLane = true ↔
    ∃ l w, s.lanes.table.laneOf s.own = some l ∧ s.Adopts t l w := by
  rw [State.losesLane, lostToRepair_iff, s.beatClosed_lanes, s.beatClosed_own, State.winners_of_closesTo h]
  simp only [adoption_iff, State.Adopts]

theorem State.elected_of_closesTo {t : State} (h : s.ClosesTo t) (hlegal : s.lanes.table.Legal s.laneCount) :
    s.beatClosed.1.elected = s.electionAt t := by
  rw [State.elected_eq (by rwa [s.beatClosed_lanes, s.beatClosed_laneCount]), State.delivery_of_closesTo h,
    State.winners_of_closesTo h, s.beatClosed_lanes, s.beatClosed_straps]
  rfl

theorem SyncState.reports_iff {x : SyncState} : x.reports = true ↔ x = .entering ∨ x = .locked := by
  cases x <;> simp [SyncState.reports]

/-- What the lane manager does at a census close: the election, follow mode, or follow mode after the entry into
CONFLICT (R90, R106). -/
theorem State.lanesClosed_cases (h : s.beat.sync.receives = true) :
    (s.beatClosed.1.beat.sync.reports = true ∧ s.slotConflict = false ∧
      s.lanesClosed = s.beatClosed.1.election) ∨
    (s.beatClosed.1.beat.sync.reports = false ∧ s.slotConflict = false ∧
      s.lanesClosed = s.beatClosed.1.follow) ∨
    (s.beatClosed.1.beat.sync = .conflict ∧ s.slotConflict = true ∧
      s.lanesClosed = (s.beatClosed.1.conflictEntry.1.follow.1,
        s.beatClosed.1.conflictEntry.2.1 ++ s.beatClosed.1.conflictEntry.1.follow.2 ++
          s.beatClosed.1.conflictEntry.2.2)) := by
  cases hc : s.slotConflict with
  | true =>
    have hsync := (State.slotConflict_iff_enters.mp hc).1
    refine .inr (.inr ⟨hsync, rfl, ?_⟩)
    rw [State.lanesClosed, hc, State.lanesAtCensus_conflict hsync]
  | false =>
    rw [State.lanesClosed, hc]
    cases hrep : s.beatClosed.1.beat.sync.reports with
    | true => exact .inl ⟨rfl, rfl, State.lanesAtCensus_elects (SyncState.reports_iff.mp hrep) _⟩
    | false =>
      have hne : ∀ x : SyncState, x.reports = true → s.beatClosed.1.beat.sync ≠ x := fun x hx he => by
        rw [he, hx] at hrep
        cases hrep
      exact .inr (.inl ⟨rfl, rfl, State.lanesAtCensus_follows (State.beatClosed_sync_receives h) (hne _ rfl)
        (hne _ rfl)⟩)

/-- The divergence counter moves on by one at most (R119, R120). -/
theorem State.lanesClosed_divergence_le (h : s.beat.sync.receives = true) :
    s.lanesClosed.1.lanes.divergence ≤ s.lanes.divergence + 1 := by
  rcases State.lanesClosed_cases h with ⟨-, -, he⟩ | ⟨-, -, he⟩ | ⟨-, -, he⟩ <;> rw [he]
  · rw [State.election_divergence, State.compared_divergence, s.beatClosed_lanes]
    split <;> omega
  · exact Nat.zero_le _
  · exact Nat.zero_le _

/-- How a census close ends: with the lane manager, or in LISTEN by a rejoin on divergence, which needs a
divergence counter of 3 before (R119, R122). -/
theorem exec_censusClose_spec (hr : s.inReset = false) (h : s.beat.sync.receives = true) :
    ∃ t, exec .censusClose s = .next t ∧ (s.lanes.divergence < 3 → t.beat.sync ≠ .listen) ∧
      (t.beat.sync ≠ .listen →
        t = (s.elapseTo 1600).lanesClosed.1.raise (s.elapseTo 1600).closeRecords) := by
  refine ⟨_, exec_censusClose_receives hr h, fun hdiv => ?_, State.censusClose_stays⟩
  have hu : (s.elapseTo 1600).beat.sync.receives = true := h
  have hle : (s.elapseTo 1600).lanesClosed.1.lanes.divergence ≤ s.lanes.divergence + 1 :=
    State.lanesClosed_divergence_le hu
  have hsync : (s.elapseTo 1600).censusClose.beat.sync =
      (s.elapseTo 1600).lanesClosed.1.rejoinIfDiverged.1.beat.sync := by
    rw [State.censusClose_eq]
    rfl
  rcases (s.elapseTo 1600).lanesClosed.1.rejoinIfDiverged_cases with ⟨h4, -⟩ | ⟨-, hr⟩
  · omega
  · rw [hsync, hr, State.lanesClosed_beat]
    exact (SyncState.receives_iff.mp (State.beatClosed_sync_receives hu)).1

end

end Sys2Proof.Machine

/-! SUPPORT. The election in the node: what repair, the digest comparison and the owner-side decisions move. -/

namespace Sys2Proof.Machine

section
variable {s : State}

/-! ## Repair (R114) -/

theorem State.repaired_kept (h : s.losesLane = false) : s.repaired = (s, []) := by
  unfold State.repaired
  rw [h]
  rfl

theorem State.losesLane_iff : s.losesLane = true ↔
    ∃ l w, s.lanes.table.laneOf s.own = some l ∧ adoption s.winners s.lanes.table l = some w :=
  lostToRepair_iff

theorem State.repaired_lost (h : s.losesLane = true) : s.repaired = s.cutOwnLane .conflict := by
  unfold State.repaired
  rw [h]
  rfl

theorem State.repaired_own (s : State) : s.repaired.1.own = s.own := by
  unfold State.repaired
  split
  · exact State.cutOwnLane_own _ _
  · rfl

/-! ## The digest comparison (R119) -/

/-- Writing the table and comparing the digests moves the table, its digest and the divergence counter. -/
theorem State.compared_frame (s : State) : s.compared.1 = { s.repaired.1 with
    lanes := { s.repaired.1.lanes with
      table := s.elected.after7, digest := s.elected.after7.digest, divergence := s.compared.1.lanes.divergence } } := by
  unfold State.compared State.compareDigests
  split
  · split <;> rfl
  · rfl

theorem State.compared_own (s : State) : s.compared.1.own = s.own := by
  rw [State.compared_frame]
  exact s.repaired_own

/-! ## Owner-side decisions (6.8) -/

section
variable {before : LaneTable} {lost muteAll : Bool} {r : ElectionResult} {l : Lane}

theorem State.ownerSide_none (h : before.laneOf s.own = none) : s.ownerSide before lost muteAll r =
    (s, match r.after7.laneOf s.own with
      | some l => [.gate l true .grant]
      | none => []) := by
  unfold State.ownerSide
  rw [h]
  dsimp only
  cases r.after7.laneOf s.own <;> rfl

theorem State.ownerSide_lost (h : before.laneOf s.own = some l) :
    s.ownerSide before true muteAll r = (s, []) := by
  unfold State.ownerSide
  rw [h]
  rfl

theorem State.ownerSide_freed (h : before.laneOf s.own = some l) (h2 : r.after2.laneOf s.own = none) :
    s.ownerSide before false muteAll r = (s.clearLaneFlags, match s.lanes.releasePending with
      | some reason => [.gate l false reason.gate]
      | none => []) := by
  unfold State.ownerSide
  rw [h]
  exact if_pos h2

theorem State.ownerSide_taken (h : before.laneOf s.own = some l) (h2 : r.after2.laneOf s.own ≠ none)
    (h6 : r.after6.laneOf s.own = none) :
    s.ownerSide before false muteAll r = (s.clearLaneFlags, [.gate l false .idleTaken]) := by
  unfold State.ownerSide
  rw [h]
  exact (if_neg h2).trans (if_pos h6)

theorem State.ownerSide_preempted (h : before.laneOf s.own = some l) (h2 : r.after2.laneOf s.own ≠ none)
    (h6 : r.after6.laneOf s.own ≠ none) (h7 : r.after7.laneOf s.own = none) :
    s.ownerSide before false muteAll r = (s.clearLaneFlags, [.gate l false .preempted]) := by
  unfold State.ownerSide
  rw [h]
  exact (if_neg h2).trans ((if_neg h6).trans (if_pos h7))

theorem State.ownerSide_kept (h : before.laneOf s.own = some l) (h2 : r.after2.laneOf s.own ≠ none)
    (h6 : r.after6.laneOf s.own ≠ none) (h7 : r.after7.laneOf s.own ≠ none) :
    s.ownerSide before false muteAll r = (s.keepLane r.after7 muteAll l, []) := by
  unfold State.ownerSide
  rw [h]
  exact (if_neg h2).trans ((if_neg h6).trans (if_neg h7))

end

/-! ## The end of the election (R89, R123) -/

theorem State.settleOwn_laneCollisions (s : State) : s.settleOwn.1.lanes.laneCollisions =
    if s.lanes.table.laneOf s.own = none then 0 else s.lanes.laneCollisions := by
  unfold State.settleOwn
  cases s.lanes.table.laneOf s.own <;> rfl

theorem State.decided_own (s : State) : s.decided.1.own = s.own := by
  rw [State.decided, State.ownerSide_own, s.compared_own]

theorem State.decided_table (s : State) : s.decided.1.lanes.table = s.elected.after7 := by
  rw [State.decided, State.ownerSide_lanes_table, s.compared_frame]

end

end Sys2Proof.Machine

/-! SUPPORT. The lane manager's part of the census close, obligation by obligation: the lane table. -/

namespace Sys2Proof.Machine

section
variable {s : State}

/-! ## The own lane in the election (R101, R103, R114, R123) -/

theorem State.election_fst (s : State) : s.election.1 = s.decided.1.settleOwn.1 := by rw [State.election_eq]

theorem State.election_audio (s : State) : s.election.1.audio = s.repaired.1.audio := by
  rw [State.election_fst, State.settleOwn_audio, State.decided, State.ownerSide_audio, State.compared_frame]

theorem State.election_closingCycle (s : State) : s.election.1.lanes.closingCycle = s.lanes.closingCycle := by
  rw [State.election_fst, State.settleOwn_lanes_closingCycle, State.decided, State.ownerSide_lanes_closingCycle,
    State.compared_frame]
  unfold State.repaired
  split
  · exact State.cutOwnLane_lanes_closingCycle _ _
  · rfl

/-- After repair took the own lane its flags and its counter stand as a cut leaves them (R86, R114). -/
theorem State.election_lost (h : s.losesLane = true) :
    s.election.1.audio.tx = none ∧ s.election.1.lanes.releasePending = none ∧
      s.election.1.lanes.idleHold = false ∧ s.election.1.lanes.laneCollisions = 0 ∧
      s.election.1.lanes.cutInCycle = true := by
  obtain ⟨l, w, hl, -⟩ := State.losesLane_iff.mp h
  have hrepaired := State.repaired_lost h
  rw [State.cutOwnLane_of_owner hl] at hrepaired
  have hdecided : s.decided.1 = s.compared.1 := by
    have hown : s.lanes.table.laneOf s.compared.1.own = some l := by rw [s.compared_own, hl]
    rw [State.decided, h, State.ownerSide_lost hown]
  refine ⟨?_, ?_, ?_, ?_, ?_⟩
  · rw [State.election_audio, hrepaired]
    rfl
  · rw [State.election_fst, State.settleOwn_lanes_releasePending, hdecided, State.compared_frame, hrepaired]
  · rw [State.election_fst, State.settleOwn_lanes_idleHold, hdecided, State.compared_frame, hrepaired]
  · rw [State.election_fst, State.settleOwn_laneCollisions, hdecided, State.compared_frame, hrepaired]
    split <;> rfl
  · rw [State.election_fst, State.settleOwn_lanes_cutInCycle, hdecided, State.compared_frame, hrepaired]

/-- The own lane is kept through the stages 2, 6 and 7 (R101). -/
def ElectionResult.Keeps (r : ElectionResult) (own : Addr) : Prop :=
  r.after2.laneOf own ≠ none ∧ r.after6.laneOf own ≠ none ∧ r.after7.laneOf own ≠ none

/-- The owner-side decisions about an own lane that repair left. -/
theorem State.decided_owner (h : s.losesLane = false) {l : Lane} (hl : s.lanes.table.laneOf s.own = some l) :
    (s.elected.Keeps s.own ∧
      s.decided = (s.compared.1.keepLane s.elected.after7 (hasMuteAll s.delivery) l, [])) ∨
    (¬ s.elected.Keeps s.own ∧ s.decided.1 = s.compared.1.clearLaneFlags) := by
  have hown : s.lanes.table.laneOf s.compared.1.own = some l := by rw [s.compared_own, hl]
  rw [State.decided, h]
  by_cases h2 : s.elected.after2.laneOf s.own = none
  · rw [State.ownerSide_freed hown (by rwa [s.compared_own])]
    exact .inr ⟨fun hk => hk.1 h2, rfl⟩
  by_cases h6 : s.elected.after6.laneOf s.own = none
  · rw [State.ownerSide_taken hown (by rwa [s.compared_own]) (by rwa [s.compared_own])]
    exact .inr ⟨fun hk => hk.2.1 h6, rfl⟩
  by_cases h7 : s.elected.after7.laneOf s.own = none
  · rw [State.ownerSide_preempted hown (by rwa [s.compared_own]) (by rwa [s.compared_own])
      (by rwa [s.compared_own])]
    exact .inr ⟨fun hk => hk.2.2 h7, rfl⟩
  · rw [State.ownerSide_kept hown (by rwa [s.compared_own]) (by rwa [s.compared_own])
      (by rwa [s.compared_own])]
    exact .inl ⟨⟨h2, h6, h7⟩, rfl⟩

theorem State.compared_kept (h : s.losesLane = false) : s.compared.1 = { s with
    lanes := { s.lanes with
      table := s.elected.after7, digest := s.elected.after7.digest, divergence := s.compared.1.lanes.divergence } } := by
  have hframe := s.compared_frame
  rwa [State.repaired_kept h] at hframe

/-- What becomes of the flags and of the counter of an own lane that repair left (R101, R103, R123). -/
theorem State.election_ownLane (h : s.losesLane = false) {l : Lane} (hl : s.lanes.table.laneOf s.own = some l) :
    (¬ s.elected.Keeps s.own → s.election.1.lanes.releasePending = none ∧
      s.election.1.lanes.idleHold = false ∧ s.election.1.lanes.laneCollisions = 0) ∧
    (s.elected.Keeps s.own → s.election.1.lanes.laneCollisions = s.lanes.laneCollisions) := by
  rw [State.election_fst, State.settleOwn_lanes_releasePending, State.settleOwn_lanes_idleHold,
    State.settleOwn_laneCollisions, State.decided_table, State.decided_own]
  rcases State.decided_owner h hl with ⟨hk, hd⟩ | ⟨hk, hd⟩
  · refine ⟨fun hnot => absurd hk hnot, fun _ => ?_⟩
    rw [if_neg hk.2.2, hd, State.keepLane_lanes_laneCollisions, State.compared_kept h]
  · refine ⟨fun _ => ?_, fun hkeeps => absurd hkeeps hk⟩
    rw [hd]
    exact ⟨rfl, rfl, ite_self 0⟩

/-! ## The entry into CONFLICT (R106) -/

theorem State.enterConflict_absent (s : State) : s.enterConflict.1.census.peers[s.own] = PeerEntry.absent :=
  put_get_self _ _ _

theorem State.beatClosed_conflict (hc : s.slotConflict = true) : s.beatClosed = s.closeCensus.enterConflict := by
  have hrep := (State.slotConflict_iff.mp hc).1
  rw [State.beatClosed, hc, State.beatAtCensus_true (s := s.closeCensus) hrep]

theorem State.absent_of_conflict {t : State} (hc : s.slotConflict = true) (ht : s.ClosesTo t) :
    t.census.peers[s.own].presence = .absent := by
  rw [ht.census, State.beatClosed_conflict hc]
  exact congrArg PeerEntry.presence (State.enterConflict_absent s.closeCensus)

/-- The cut at the entry into CONFLICT voids no announcement: the own address makes none (R106, R110). -/
theorem State.conflictEntry_winners {t : State} (hc : s.slotConflict = true) (ht : s.ClosesTo t) :
    s.beatClosed.1.conflictEntry.1.winners = s.winnersAt t := by
  have hann : ∀ v : Option Addr, (∀ a, v = some a → a = s.own) →
      announcements t.beat.sync v { entries := s.census.entries, peers := t.census.peers, m := s.laneCount } =
        announcements t.beat.sync none
          { entries := s.census.entries, peers := t.census.peers, m := s.laneCount } := fun v hv =>
    announcements_voided fun a ha => (hv a ha).symm ▸ State.absent_of_conflict hc ht
  have hvoided : ∀ (c : Bool) (a : Addr), (if c then some s.own else none) = some a → a = s.own := by
    rintro (_ | _) a h
    · cases h
    · exact (Option.some.inj h).symm
  rw [State.winners, State.winnersAt, State.conflictEntry_delivery, State.delivery_of_closesTo ht,
    State.conflictEntry_own, State.conflictEntry_beat, State.conflictEntry_laneCount, s.beatClosed_own,
    s.beatClosed_laneCount, ← ht.beat, hann _ (hvoided _), hann _ (hvoided _)]

theorem State.winnersAt_ne_own {t : State} (hc : s.slotConflict = true) (ht : s.ClosesTo t) {l : Lane}
    {w : Announcement} (hw : s.winnersAt t l = some w) : w.addr ≠ s.own := by
  refine State.winners_ne_absent (s := s.beatClosed.1.conflictEntry.1) ?_
    ((State.conflictEntry_winners hc ht).symm ▸ hw)
  rw [State.conflictEntry_census, ← ht.census]
  exact State.absent_of_conflict hc ht

theorem State.conflictEntry_table (s : State) :
    s.beatClosed.1.conflictEntry.1.lanes.table = s.lanes.table.without s.own := by
  rw [s.beatClosed.1.conflictEntry_lanes.2.1, s.beatClosed_lanes, s.beatClosed_own]

/-- At the entry into CONFLICT follow mode does what it does on the table before the cut (R106, R116). -/
theorem State.conflictEntry_follow {t : State} (hc : s.slotConflict = true) (ht : s.ClosesTo t) :
    s.beatClosed.1.conflictEntry.1.follow.1.lanes.table =
      followTable { entries := s.census.entries, peers := t.census.peers, m := s.laneCount } (s.winnersAt t)
        s.lanes.table := by
  rw [State.follow_table, State.conflictEntry_winners hc ht, State.conflictEntry_delivery,
    State.delivery_of_closesTo ht, State.conflictEntry_table]
  exact followTable_without winner_announcements_one (fun _ _ => State.winnersAt_ne_own hc ht)
    (State.absent_of_conflict hc ht)

theorem State.conflictEntry_closingCycle (s : State) :
    s.conflictEntry.1.lanes.closingCycle = s.lanes.closingCycle := s.cutOwnLane_lanes_closingCycle .conflict

/-- The table and the digest that the lane manager leaves (R90, R99, R116). -/
theorem State.lanesClosed_table {t : State} (h : s.beat.sync.receives = true) (ht : s.ClosesTo t)
    (hlegal : s.lanes.table.Legal s.laneCount) :
    (t.beat.sync.reports = true → s.lanesClosed.1.lanes.table = (s.electionAt t).after7) ∧
    (t.beat.sync.reports = false → s.lanesClosed.1.lanes.table =
      followTable { entries := s.census.entries, peers := t.census.peers, m := s.laneCount } (s.winnersAt t)
        s.lanes.table) ∧
    s.lanesClosed.1.lanes.digest = s.lanesClosed.1.lanes.table.digest ∧
    s.lanesClosed.1.lanes.closingCycle = s.lanes.closingCycle := by
  rw [ht.beat]
  rcases State.lanesClosed_cases h with ⟨hrep, -, he⟩ | ⟨hrep, -, he⟩ | ⟨hconf, hc, he⟩ <;> rw [he]
  · refine ⟨fun _ => ?_, fun hno => absurd (hrep.symm.trans hno) (by decide), State.election_digest _, ?_⟩
    · rw [State.election_elected, State.elected_of_closesTo ht hlegal]
    · rw [State.election_closingCycle, s.beatClosed_lanes]
  · refine ⟨fun hyes => absurd (hyes.symm.trans hrep) (by decide), fun _ => ?_, State.follow_digest _, ?_⟩
    · rw [State.follow_table, State.winners_of_closesTo ht, State.delivery_of_closesTo ht, s.beatClosed_lanes]
    · rw [State.follow_lanes_closingCycle, s.beatClosed_lanes]
  · refine ⟨fun hyes => ?_, fun _ => State.conflictEntry_follow hc ht, State.follow_digest _, ?_⟩
    · rw [hconf] at hyes
      cases hyes
    · rw [State.follow_lanes_closingCycle, State.conflictEntry_closingCycle, s.beatClosed_lanes]

theorem State.lanesClosed_elects {t : State} (h : s.beat.sync.receives = true) (ht : s.ClosesTo t)
    (he : t.beat.sync.reports = true) : s.lanesClosed = s.beatClosed.1.election := by
  rw [ht.beat] at he
  rcases State.lanesClosed_cases h with ⟨-, -, hl⟩ | ⟨hrep, -, -⟩ | ⟨hconf, -, -⟩
  · exact hl
  · rw [hrep] at he
    cases he
  · rw [hconf] at he
    cases he

theorem State.not_lost_of_closesTo {t : State} (ht : s.ClosesTo t)
    (hno : ¬ ∃ l w, s.lanes.table.laneOf s.own = some l ∧ s.Adopts t l w) :
    s.beatClosed.1.losesLane = false :=
  Bool.eq_false_iff.mpr fun h => hno ((State.lost_of_closesTo ht).mp h)

/-- What an election leaves of the slot copy and of an own lane that repair left (R101, R103, R123). -/
theorem State.lanesClosed_notLost {t : State} (h : s.beat.sync.receives = true) (ht : s.ClosesTo t)
    (hlegal : s.lanes.table.Legal s.laneCount) (he : t.beat.sync.reports = true)
    (hno : ¬ ∃ l w, s.lanes.table.laneOf s.own = some l ∧ s.Adopts t l w) :
    s.lanesClosed.1.lanes.slotCopy = s.lanes.slotCopy ∧ s.lanesClosed.1.audio.tx = s.audio.tx ∧
    (s.lanes.table.laneOf s.own ≠ none →
      (¬ (s.electionAt t).Keeps s.own → s.lanesClosed.1.lanes.releasePending = none ∧
        s.lanesClosed.1.lanes.idleHold = false ∧ s.lanesClosed.1.lanes.laneCollisions = 0) ∧
      ((s.electionAt t).Keeps s.own →
        s.lanesClosed.1.lanes.laneCollisions = s.lanes.laneCollisions)) := by
  have hloses := State.not_lost_of_closesTo ht hno
  rw [State.lanesClosed_elects h ht he]
  refine ⟨?_, ?_, fun hne => ?_⟩
  · rw [State.election_slotCopy]
    exact (if_neg (by rw [show lostToRepair _ _ _ = false from hloses]; decide)).trans
      (congrArg LaneManager.slotCopy s.beatClosed_lanes)
  · rw [State.election_audio, State.repaired_kept hloses, State.beatClosed, State.beatAtCensus_audio]
    rfl
  · obtain ⟨l, hl⟩ := Option.ne_none_iff_exists'.mp hne
    have hlane := State.election_ownLane hloses (l := l) (by rw [s.beatClosed_lanes, s.beatClosed_own, hl])
    rwa [State.elected_of_closesTo ht hlegal, s.beatClosed_own, s.beatClosed_lanes] at hlane

/-- A lane lost to repair is cut from the slot copy too, with its flags and its transmission (R114). -/
theorem State.lanesClosed_lost {t : State} (h : s.beat.sync.receives = true) (ht : s.ClosesTo t)
    (he : t.beat.sync.reports = true)
    (hlost : ∃ l w, s.lanes.table.laneOf s.own = some l ∧ s.Adopts t l w) :
    s.lanesClosed.1.audio.tx = none ∧ s.lanesClosed.1.lanes.releasePending = none ∧
      s.lanesClosed.1.lanes.idleHold = false ∧ s.lanesClosed.1.lanes.laneCollisions = 0 ∧
      s.lanesClosed.1.lanes.cutInCycle = true ∧
      ∀ l : Lane, s.lanesClosed.1.lanes.slotCopy[l] =
        if s.lanes.slotCopy[l].owner = some s.own then .free else s.lanes.slotCopy[l] := by
  have hloses := (State.lost_of_closesTo ht).mpr hlost
  rw [State.lanesClosed_elects h ht he]
  obtain ⟨htx, hpending, hidle, hcollisions, hcut⟩ := State.election_lost hloses
  refine ⟨htx, hpending, hidle, hcollisions, hcut, fun l => ?_⟩
  have hcopy : s.beatClosed.1.election.1.lanes.slotCopy = s.lanes.slotCopy.without s.own := by
    rw [State.election_slotCopy, ← s.beatClosed_own, ← s.beatClosed_lanes]
    exact if_pos hloses
  rw [hcopy, LaneTable.without_get]

end

/-- Settles O43. -/
theorem censusCloseWritesTheLaneTable : Obligations.CensusCloseWritesTheLaneTable := by
  intro s hr hl ha hlegal
  have hrec := SyncState.receives_iff.mpr ⟨hl, ha⟩
  obtain ⟨t, hexec, hdiv, hstays⟩ := exec_censusClose_spec hr hrec
  refine ⟨t, hexec, hdiv, fun hsync => ?_⟩
  have ht := hstays hsync
  have hclose : (s.elapseTo 1600).ClosesTo t := ht ▸ State.lanesClosed_closesTo _ _
  have hu : (s.elapseTo 1600).beat.sync.receives = true := hrec
  have hlegal' : (s.elapseTo 1600).lanes.table.Legal (s.elapseTo 1600).laneCount := hlegal
  have hlanes : t.lanes = (s.elapseTo 1600).lanesClosed.1.lanes := by rw [ht]; rfl
  have haudio : t.audio = (s.elapseTo 1600).lanesClosed.1.audio := by rw [ht]; rfl
  obtain ⟨helects, hfollows, hdigest, hclosing⟩ := State.lanesClosed_table hu hclose hlegal'
  intro d elects lost
  rw [hlanes, haudio]
  refine ⟨fun he => helects (SyncState.reports_iff.mpr he), fun he => hfollows ?_, hdigest, hclosing,
    fun he hno => ?_, fun he hlost => ?_, fun he hno hown => ?_⟩
  · exact Bool.eq_false_iff.mpr fun h => he (SyncState.reports_iff.mp h)
  · obtain ⟨hcopy, htx, -⟩ := State.lanesClosed_notLost hu hclose hlegal' (SyncState.reports_iff.mpr he) hno
    exact ⟨hcopy, htx⟩
  · exact State.lanesClosed_lost hu hclose (SyncState.reports_iff.mpr he) hlost
  · obtain ⟨-, -, hkept⟩ := State.lanesClosed_notLost hu hclose hlegal' (SyncState.reports_iff.mpr he) hno
    exact hkept hown

end Sys2Proof.Machine

/-! SUPPORT. What a census close moves besides the lanes: presence, the blink, what is being sent. -/

namespace Sys2Proof.Machine

section
variable {s : State}

/-! ## Presence (Table 5-5) -/

theorem PeerEntry.update_good {p : PeerEntry} (h : p.Sound) {fingerprint : BitVec 8} {r : Report}
    (hr : r.fingerprint = fingerprint) :
    (p.presence = .absent → p.update fingerprint (some r) = { presence := .arriving, good := 1, miss := 0 }) ∧
    (p.presence = .arriving → p.update fingerprint (some r) = { presence := .present, good := 2, miss := 0 }) ∧
    (p.presence = .present → p.update fingerprint (some r) = { presence := .present, good := 2, miss := 0 }) ∧
    (p.presence = .missing → p.update fingerprint (some r) = { presence := .present, good := 2, miss := 0 }) ∧
    (p.presence = .foreign → p.update fingerprint (some r) = { presence := .arriving, good := 1, miss := 0 }) := by
  have hgood : p.update fingerprint (some r) = p.onGood := if_pos hr
  rw [hgood]
  obtain ⟨presence, good, miss⟩ := p
  refine ⟨?_, ?_, ?_, ?_, ?_⟩ <;> rintro rfl <;> obtain ⟨rfl, -⟩ := h <;> rfl

theorem PeerEntry.update_foreign (p : PeerEntry) {fingerprint : BitVec 8} {r : Report}
    (hr : r.fingerprint ≠ fingerprint) :
    p.update fingerprint (some r) = { presence := .foreign, good := 0, miss := 0 } := if_neg hr

theorem PeerEntry.update_miss (p : PeerEntry) (fingerprint : BitVec 8) :
    (p.presence = .absent → p.update fingerprint none = { presence := .absent, good := 0, miss := 0 }) ∧
    (p.presence = .arriving → p.update fingerprint none = { presence := .absent, good := 0, miss := 0 }) ∧
    (p.presence = .present → p.update fingerprint none = { presence := .missing, good := 2, miss := 1 }) ∧
    (p.presence = .missing → p.miss = 1 →
      p.update fingerprint none = { presence := .missing, good := 2, miss := 2 }) ∧
    (p.presence = .missing → p.miss = 2 →
      p.update fingerprint none = { presence := .absent, good := 0, miss := 0 }) ∧
    (p.presence = .foreign → p.miss < 2 →
      p.update fingerprint none = { presence := .foreign, good := 0, miss := p.miss + 1 }) ∧
    (p.presence = .foreign → p.miss = 2 →
      p.update fingerprint none = { presence := .absent, good := 0, miss := 0 }) := by
  obtain ⟨presence, good, miss⟩ := p
  refine ⟨?_, ?_, ?_, ?_, ?_, ?_, ?_⟩ <;> rintro rfl
  · rfl
  · rfl
  · rfl
  · rintro rfl; rfl
  · rintro rfl; rfl
  · exact fun h => if_pos (Nat.succ_lt_succ h)
  · rintro rfl; rfl

theorem State.beatAtCensus_peers (c : Bool) (s : State) {a : Addr} (ha : a ≠ s.own) :
    (s.beatAtCensus c).1.census.peers[a] = s.census.peers[a] := by
  rcases s.beatAtCensus_sync c with ⟨-, -, he⟩ | ⟨-, he⟩ <;> rw [he]
  exact put_get_ne _ _ (Ne.symm ha)

/-- The entry of another address after a census close (R77). -/
theorem State.beatClosed_peers (s : State) {a : Addr} (ha : a ≠ s.own) :
    s.beatClosed.1.census.peers[a] = s.census.peers[a].update s.keys.fingerprint s.census.entries[a] := by
  rw [State.beatClosed, State.beatAtCensus_peers _ s.closeCensus ha]
  exact (ofFn_get _ a).trans (if_neg ha)

/-- The PEER records are those of the changes of presence (R79). -/
theorem State.closeCensus_raises {t : State} (ht : s.ClosesTo t) :
    PeersRaise s.own s.census.peers t.census.peers
      (peerRecords s.own s.census.peers s.closeCensus.census.peers) := by
  have hpeer : ∀ a : Addr, a ≠ s.own → t.census.peers[a] = s.closeCensus.census.peers[a] := fun a ha => by
    rw [ht.census]
    exact State.beatAtCensus_peers _ s.closeCensus ha
  unfold PeersRaise peerRecords
  rw [← List.filterMap_eq_map, List.filterMap_filter]
  refine List.filterMap_congr fun a _ => ?_
  by_cases ha : a = s.own
  · simp [ha]
  · rw [← hpeer a ha]
    simp only [decide_eq_true_eq, Function.comp]

/-! ## The LINK blink (R156) -/

theorem SyncState.blinks_iff {x : SyncState} :
    x.blinks = true ↔ x = .aligning ∨ x = .observing ∨ x = .entering := by
  cases x <;> simp [SyncState.blinks]

/-- The keys stay with the sync state, or follow its change (R156). -/
def State.KeysFollow (s t : State) : Prop :=
  (t.beat.sync = s.beat.sync ∧ t.keys = s.keys) ∨
    (t.beat.sync ≠ s.beat.sync ∧ t.keys = s.keys.onSync s.beat.sync t.beat.sync)

theorem State.KeysFollow.changes {t : State} (old new : SyncState) (h : s.beat.sync = old) (hne : new ≠ old)
    (hsync : t.beat.sync = new) (hkeys : t.keys = s.keys.onSync s.beat.sync new) : s.KeysFollow t := by
  subst hsync
  exact .inr ⟨h ▸ hne, hkeys⟩

theorem State.observe_keysFollow (h : s.beat.sync = .observing) : s.KeysFollow s.observe.1 := by
  unfold State.observe State.changeSync
  dsimp only
  repeat' split
  · exact .inl ⟨rfl, rfl⟩
  · exact .inl ⟨rfl, rfl⟩
  · exact .changes .observing .entering h (by decide) rfl rfl
  · exact .changes .observing .incompatible h (by decide) rfl rfl

theorem State.recheck_keysFollow (h : s.beat.sync = .incompatible) : s.KeysFollow s.recheck.1 := by
  unfold State.recheck State.changeSync
  dsimp only
  repeat' split
  · exact .inl ⟨rfl, rfl⟩
  · exact .changes .incompatible .observing h (by decide) rfl rfl
  · exact .inl ⟨rfl, rfl⟩

theorem State.waitConflict_keysFollow (h : s.beat.sync = .conflict) : s.KeysFollow s.waitConflict.1 := by
  unfold State.waitConflict State.changeSync
  dsimp only
  split
  · exact .changes .conflict .observing h (by decide) rfl rfl
  · exact .inl ⟨rfl, rfl⟩

theorem State.enter_keysFollow (h : s.beat.sync = .entering) : s.KeysFollow s.enter.1 := by
  unfold State.enter State.becomeLocked State.changeSync
  extract_lets mismatch
  split
  · exact .changes .entering .incompatible h (by decide) rfl rfl
  · split
    · split
      · exact .inl ⟨rfl, rfl⟩
      · exact .changes .entering .locked h (by decide) rfl rfl
    · exact .inl ⟨rfl, rfl⟩
    · exact .inl ⟨rfl, rfl⟩

/-- The blink counter and the LINK phase go with the changes of sync state (R156). -/
theorem State.beatAtCensus_keysFollow (c : Bool) (s : State) : s.KeysFollow (s.beatAtCensus c).1 := by
  unfold State.beatAtCensus
  split
  · next h => exact State.observe_keysFollow h
  · next h => exact State.recheck_keysFollow h
  · next h => exact State.waitConflict_keysFollow h
  · next h =>
    split
    · exact .changes .entering .conflict h (by decide) rfl rfl
    · exact State.enter_keysFollow h
  · next h =>
    split
    · exact .changes .locked .conflict h (by decide) rfl rfl
    · exact .inl ⟨rfl, rfl⟩
  · exact .inl ⟨rfl, rfl⟩
  · exact .inl ⟨rfl, rfl⟩

theorem State.beatClosed_blink (s : State) :
    (s.beatClosed.1.beat.sync = s.beat.sync ∨ s.beat.sync.blinks = true ∧ s.beatClosed.1.beat.sync.blinks = true →
      s.beatClosed.1.keys.blinkCount = s.keys.blinkCount ∧ s.beatClosed.1.keys.linkPhase = s.keys.linkPhase) ∧
    (s.beat.sync.blinks = false → s.beatClosed.1.beat.sync.blinks = true →
      s.beatClosed.1.keys.blinkCount = 0 ∧ s.beatClosed.1.keys.linkPhase = true) ∧
    (s.beatClosed.1.beat.sync ≠ s.beat.sync → s.beatClosed.1.beat.sync.blinks = false →
      s.beatClosed.1.keys.blinkCount = 0 ∧ s.beatClosed.1.keys.linkPhase = s.keys.linkPhase) := by
  rcases State.beatAtCensus_keysFollow s.slotConflict s.closeCensus with ⟨hsync, hkeys⟩ | ⟨hsync, hkeys⟩
  · have hs : s.beatClosed.1.beat.sync = s.beat.sync := hsync
    have hk : s.beatClosed.1.keys = s.keys := hkeys
    rw [hk, hs]
    exact ⟨fun _ => ⟨rfl, rfl⟩, fun h h' => absurd (h.symm.trans h') (by decide), fun h => absurd rfl h⟩
  · have hs : s.beatClosed.1.beat.sync ≠ s.beat.sync := hsync
    have hk : s.beatClosed.1.keys = s.keys.onSync s.beat.sync s.beatClosed.1.beat.sync := hkeys
    rw [hk]
    unfold KeyUnit.onSync
    refine ⟨fun h => ?_, fun hold hnew => ?_, fun _ hnew => ?_⟩
    · obtain ⟨hold, hnew⟩ := h.resolve_left hs
      rw [if_pos hnew, if_pos hold]
      exact ⟨rfl, rfl⟩
    · rw [if_pos hnew, if_neg (by simp [hold])]
      exact ⟨rfl, rfl⟩
    · rw [if_neg (by simp [hnew])]
      exact ⟨rfl, rfl⟩

/-! ## What the census close moves -/

/-- What census unit and beat unit move at a census close (R55 to R59, R70, R77, R80, R156). -/
theorem State.beatClosed_frame (s : State) : s.beatClosed.1 = { s with
    beat := { s.beat with
      sync := s.beatClosed.1.beat.sync, holder := s.beatClosed.1.beat.holder
      rank := s.beatClosed.1.beat.rank, candidate := s.beatClosed.1.beat.candidate
      holderCond := s.beatClosed.1.beat.holderCond, obsCount := s.beatClosed.1.beat.obsCount
      entCount := s.beatClosed.1.beat.entCount }
    census := { s.census with
      peers := s.beatClosed.1.census.peers, ownCollisions := s.beatClosed.1.census.ownCollisions
      conflictWait := s.beatClosed.1.census.conflictWait }
    keys := s.beatClosed.1.keys } :=
  State.beatAtCensus_frame s.slotConflict s.closeCensus

theorem KeyUnit.onSync_frame (old new : SyncState) (k : KeyUnit) : k.onSync old new = { k with
    blinkCount := (k.onSync old new).blinkCount, linkPhase := (k.onSync old new).linkPhase } := by
  unfold KeyUnit.onSync
  split
  · split <;> rfl
  · rfl

theorem State.beatClosed_keys (s : State) : s.beatClosed.1.keys = { s.keys with
    blinkCount := s.beatClosed.1.keys.blinkCount, linkPhase := s.beatClosed.1.keys.linkPhase } := by
  rcases State.beatAtCensus_keysFollow s.slotConflict s.closeCensus with ⟨-, hkeys⟩ | ⟨-, hkeys⟩
  · have hk : s.beatClosed.1.keys = s.keys := hkeys
    rw [hk]
  · have hk : s.beatClosed.1.keys = s.keys.onSync s.beat.sync s.beatClosed.1.beat.sync := hkeys
    rw [hk]
    exact KeyUnit.onSync_frame _ _ _

/-! ## What is being sent (R86, R106, R114) -/

/-- The own lane is cut at this census close. -/
def State.CutBy (s t : State) : Prop :=
  ∃ l, s.lanes.table.laneOf s.own = some l ∧
    ((t.beat.sync = .conflict ∧ s.beat.sync ≠ .conflict) ∨
      ((t.beat.sync = .entering ∨ t.beat.sync = .locked) ∧ ∃ w, s.Adopts t l w))

/-- A cut stops an own lane frame and its reads, and touches nothing else that is sent (R86). -/
theorem State.cutOwnLane_sent {l : Lane} (h : s.lanes.table.laneOf s.own = some l) (g : GateReason) :
    (s.cutOwnLane g).1.audio = { s.audio with tx := none } ∧
      (s.cutOwnLane g).1.arbiter = s.arbiter.endTransmitter ∧ (s.cutOwnLane g).1.line = s.line.stopLane := by
  rw [State.cutOwnLane_of_owner h]
  exact ⟨rfl, rfl, rfl⟩

theorem State.cutOwnLane_unsent (h : s.lanes.table.laneOf s.own = none) (g : GateReason) :
    (s.cutOwnLane g).1.audio = s.audio ∧ (s.cutOwnLane g).1.arbiter = s.arbiter ∧
      (s.cutOwnLane g).1.line = s.line := by
  unfold State.cutOwnLane
  rw [h]
  exact ⟨rfl, rfl, rfl⟩

theorem State.election_arbiter (s : State) : s.election.1.arbiter = s.repaired.1.arbiter := by
  rw [State.election_fst, State.settleOwn_arbiter, State.decided, State.ownerSide_arbiter, State.compared_frame]

theorem State.conflictEntry_follow_sent (s : State) :
    s.conflictEntry.1.follow.1.audio = (s.cutOwnLane .conflict).1.audio ∧
      s.conflictEntry.1.follow.1.arbiter = (s.cutOwnLane .conflict).1.arbiter ∧
      s.conflictEntry.1.follow.1.line = (s.cutOwnLane .conflict).1.line :=
  ⟨rfl, rfl, rfl⟩

/-- What goes on being sent over a census close, and what stops (R86, R106, R114). -/
theorem State.lanesClosed_sent {t : State} (h : s.beat.sync.receives = true) (ht : s.ClosesTo t) :
    (s.CutBy t → s.lanesClosed.1.audio = { s.audio with tx := none } ∧
      s.lanesClosed.1.arbiter = s.arbiter.endTransmitter ∧ s.lanesClosed.1.line = s.line.stopLane) ∧
    (¬ s.CutBy t → s.lanesClosed.1.audio = s.audio ∧ s.lanesClosed.1.arbiter = s.arbiter ∧
      s.lanesClosed.1.line = s.line) := by
  have hown : s.beatClosed.1.lanes.table.laneOf s.beatClosed.1.own = s.lanes.table.laneOf s.own := by
    rw [s.beatClosed_lanes, s.beatClosed_own]
  have haudio : s.beatClosed.1.audio = s.audio := State.beatAtCensus_audio _ _
  have harbiter : s.beatClosed.1.arbiter = s.arbiter := by
    rw [State.beatClosed, State.beatAtCensus_frame]
    rfl
  have hline : s.beatClosed.1.line = s.line := State.beatAtCensus_line _ _
  unfold State.CutBy
  rcases State.lanesClosed_cases h with ⟨hrep, hc, he⟩ | ⟨hrep, hc, he⟩ | ⟨hconf, hc, he⟩ <;> rw [he]
  · have hnc : t.beat.sync ≠ .conflict := fun hsync => by
      rw [ht.beat] at hsync
      rw [hsync] at hrep
      cases hrep
    rw [State.election_audio, State.election_arbiter, State.election_line]
    cases hl : s.beatClosed.1.losesLane with
    | true =>
      refine ⟨fun _ => ?_, fun hno => ?_⟩
      · obtain ⟨l, -, hlane, -⟩ := State.losesLane_iff.mp hl
        rw [State.repaired_lost hl, ← haudio, ← harbiter, ← hline]
        exact State.cutOwnLane_sent hlane _
      · obtain ⟨l, w, hlane, hw⟩ := (State.lost_of_closesTo ht).mp hl
        exact absurd ⟨l, hlane, .inr ⟨SyncState.reports_iff.mp (ht.beat ▸ hrep), w, hw⟩⟩ hno
    | false =>
      refine ⟨fun ⟨l, hlane, hcut⟩ => ?_, fun _ => ?_⟩
      · obtain ⟨-, w, hw⟩ := hcut.resolve_left fun hx => hnc hx.1
        rw [(State.lost_of_closesTo ht).mpr ⟨l, w, hlane, hw⟩] at hl
        cases hl
      · rw [State.repaired_kept hl]
        exact ⟨haudio, harbiter, hline⟩
  · refine ⟨fun ⟨l, hlane, hcut⟩ => ?_, fun _ => ⟨haudio, harbiter, hline⟩⟩
    rw [ht.beat] at hcut
    rcases hcut with hcut | ⟨hsync, -⟩
    · rw [State.slotConflict_iff_enters.mpr hcut] at hc
      cases hc
    · rw [SyncState.reports_iff.mpr hsync] at hrep
      cases hrep
  · have henters := State.slotConflict_iff_enters.mp hc
    rw [← ht.beat] at henters
    obtain ⟨hfaudio, hfarbiter, hfline⟩ := s.beatClosed.1.conflictEntry_follow_sent
    rw [hfaudio, hfarbiter, hfline, ← haudio, ← harbiter, ← hline]
    refine ⟨fun ⟨l, hlane, _⟩ => State.cutOwnLane_sent (hown.trans hlane) .conflict, fun hno => ?_⟩
    refine State.cutOwnLane_unsent (hown.trans ?_) .conflict
    exact Option.eq_none_iff_forall_ne_some.mpr fun l hl => hno ⟨l, hl, .inl henters⟩

/-- Blocks that a census close without a rejoin leaves alone, and what it moves of the others (R74). -/
theorem State.lanesClosed_frame {t : State} (h : s.beat.sync.receives = true)
    (ht : t = s.lanesClosed.1.raise s.closeRecords) :
    t.capture = s.capture ∧ t.detector = s.detector ∧ t.mix = s.mix ∧
    t.audio = { s.audio with tx := t.audio.tx } ∧ t.line = { s.line with tx := t.line.tx } ∧
    t.beat = { s.beat with
      sync := t.beat.sync, holder := t.beat.holder, rank := t.beat.rank
      candidate := t.beat.candidate, holderCond := t.beat.holderCond
      obsCount := t.beat.obsCount, entCount := t.beat.entCount } ∧
    t.census = { s.census with
      peers := t.census.peers, ownCollisions := t.census.ownCollisions, conflictWait := t.census.conflictWait } ∧
    t.keys = s.beatClosed.1.keys ∧ t.status = s.status.pushAll s.beat.cycle s.closeRecords ∧
    t.inReset = s.inReset ∧ t.pending = s.pending ∧ t.cycleStarts = s.cycleStarts := by
  have hclose : s.ClosesTo t := ht ▸ s.lanesClosed_closesTo _
  obtain ⟨hcut, huncut⟩ := State.lanesClosed_sent h hclose
  have hframe := s.beatClosed_frame
  have hbeat := hclose.beat
  have hcensus := hclose.census
  have haudio : t.audio = s.lanesClosed.1.audio := ht ▸ rfl
  have hline : t.line = s.lanesClosed.1.line := ht ▸ rfl
  have hcycle : s.beatClosed.1.beat.cycle = s.beat.cycle := State.beatAtCensus_beat_cycle _ _
  refine ⟨?_, ?_, ?_, ?_, ?_, ?_, ?_, ?_, ?_, ?_, ?_, ?_⟩
  · rw [ht, State.raise_capture, State.lanesClosed, State.lanesAtCensus_capture, hframe]
  · rw [ht, State.raise_detector, State.lanesClosed, State.lanesAtCensus_detector, hframe]
  · rw [ht, State.raise_mix, State.lanesClosed, State.lanesAtCensus_mix, hframe]
  · rw [haudio]
    by_cases hc : s.CutBy t
    · rw [(hcut hc).1]
    · rw [(huncut hc).1]
  · rw [hline]
    by_cases hc : s.CutBy t
    · rw [(hcut hc).2.2]
      rfl
    · rw [(huncut hc).2.2]
  · rw [hbeat]
    exact congrArg State.beat hframe
  · rw [hcensus]
    exact congrArg State.census hframe
  · rw [ht, State.raise_keys, State.lanesClosed, State.lanesAtCensus_keys]
  · have hstatus : s.lanesClosed.1.status = s.status := by
      rw [State.lanesClosed, State.lanesAtCensus_status, hframe]
    rw [ht, State.raise, hstatus, s.lanesClosed_beat, hcycle]
  · rw [ht, State.raise_inReset, s.lanesClosed_inReset]
  · rw [ht, State.raise_pending, State.lanesClosed, State.lanesAtCensus_pending, hframe]
  · rw [ht, State.raise_cycleStarts, State.lanesClosed, State.lanesAtCensus_cycleStarts, hframe]

/-- The SYNC record of the census close (R47). -/
theorem State.beatClosed_raises {t : State} (ht : s.ClosesTo t) :
    SyncRaises s.beat.sync t.beat.sync t.beat.holder s.beatClosed.2 := by
  rw [ht.beat]
  exact State.beatAtCensus_raises s.slotConflict s.closeCensus

/-- The entry of every other address moves by Table 5-5. -/
theorem State.beatClosed_presence (hsound : ∀ a : Addr, s.census.peers[a].Sound) {a : Addr} (ha : a ≠ s.own) :
    let p := s.census.peers[a]
    let q := s.beatClosed.1.census.peers[a]
    (∀ r, s.census.entries[a] = some r → r.fingerprint = s.keys.fingerprint →
      (p.presence = .absent → q = { presence := .arriving, good := 1, miss := 0 }) ∧
      (p.presence = .arriving → q = { presence := .present, good := 2, miss := 0 }) ∧
      (p.presence = .present → q = { presence := .present, good := 2, miss := 0 }) ∧
      (p.presence = .missing → q = { presence := .present, good := 2, miss := 0 }) ∧
      (p.presence = .foreign → q = { presence := .arriving, good := 1, miss := 0 })) ∧
    (∀ r, s.census.entries[a] = some r → r.fingerprint ≠ s.keys.fingerprint →
      q = { presence := .foreign, good := 0, miss := 0 }) ∧
    (s.census.entries[a] = none →
      (p.presence = .absent → q = { presence := .absent, good := 0, miss := 0 }) ∧
      (p.presence = .arriving → q = { presence := .absent, good := 0, miss := 0 }) ∧
      (p.presence = .present → q = { presence := .missing, good := 2, miss := 1 }) ∧
      (p.presence = .missing → p.miss = 1 → q = { presence := .missing, good := 2, miss := 2 }) ∧
      (p.presence = .missing → p.miss = 2 → q = { presence := .absent, good := 0, miss := 0 }) ∧
      (p.presence = .foreign → p.miss < 2 →
        q = { presence := .foreign, good := 0, miss := p.miss + 1 }) ∧
      (p.presence = .foreign → p.miss = 2 → q = { presence := .absent, good := 0, miss := 0 })) := by
  intro p q
  have hq : q = p.update s.keys.fingerprint s.census.entries[a] := s.beatClosed_peers ha
  rw [hq]
  refine ⟨fun r hr hf => ?_, fun r hr hf => ?_, fun hr => ?_⟩ <;> rw [hr]
  · exact PeerEntry.update_good (hsound a) hf
  · exact PeerEntry.update_foreign p hf
  · exact PeerEntry.update_miss p _

end

/-- Settles O31. -/
theorem censusCloseUpdatesPresence : Obligations.CensusCloseUpdatesPresence := by
  intro s hr hl ha hsound
  have hrec := SyncState.receives_iff.mpr ⟨hl, ha⟩
  obtain ⟨t, hexec, hdiv, hstays⟩ := exec_censusClose_spec hr hrec
  refine ⟨t, hexec, hdiv, fun hsync => ?_⟩
  have ht := hstays hsync
  have hu : (s.elapseTo 1600).beat.sync.receives = true := hrec
  have hclose : (s.elapseTo 1600).ClosesTo t := ht ▸ State.lanesClosed_closesTo _ _
  obtain ⟨hcapture, hdetector, hmix, haudio, hline, hbeat, hcensus, hkeys, hstatus, hreset, hpending, hstarts⟩ :=
    State.lanesClosed_frame hu ht
  obtain ⟨hcut, huncut⟩ := State.lanesClosed_sent hu hclose
  obtain ⟨hsame, hon, hoff⟩ := (s.elapseTo 1600).beatClosed_blink
  rw [← hkeys, ← hclose.beat] at hsame hon hoff
  have hblinks : ∀ x : SyncState, (x = .aligning ∨ x = .observing ∨ x = .entering) ↔ x.blinks = true :=
    fun x => SyncState.blinks_iff.symm
  have hpeers := State.closeCensus_raises hclose
  have hraised := State.beatClosed_raises hclose
  have htx : t.audio = (s.elapseTo 1600).lanesClosed.1.audio ∧
      t.arbiter = (s.elapseTo 1600).lanesClosed.1.arbiter ∧
      t.line = (s.elapseTo 1600).lanesClosed.1.line := ht ▸ ⟨rfl, rfl, rfl⟩
  refine ⟨hcapture, hdetector, hmix, haudio, hline, hbeat, hcensus, ?_, ?_, ?_, ?_, ?_, ?_, ?_, hreset, hpending,
    hstarts, fun a ha => ?_⟩
  · rw [hkeys]
    exact (s.elapseTo 1600).beatClosed_keys
  · simp only [hblinks]
    exact hsame
  · simp only [hblinks, Bool.not_eq_true]
    exact hon
  · simp only [hblinks, Bool.not_eq_true]
    exact hoff
  · exact ⟨_, _, _, hpeers, hraised, hstatus⟩
  · intro hc
    obtain ⟨hca, hcr, hcl⟩ := hcut hc
    rw [htx.1, htx.2.1, htx.2.2, hca, hcr, hcl]
    exact ⟨rfl, rfl, rfl⟩
  · intro hc
    obtain ⟨hca, hcr, hcl⟩ := huncut hc
    rw [htx.1, htx.2.1, htx.2.2, hca, hcr, hcl]
    exact ⟨rfl, rfl, rfl⟩
  · have hq := State.beatClosed_presence (s := s.elapseTo 1600) hsound ha
    rwa [← hclose.census] at hq

end Sys2Proof.Machine

/-! SUPPORT. The records of the lane manager at a census close (R165). -/

namespace Sys2Proof.Machine

/-! ## The majority digest (R121) -/

/-- The report of an address in a comparison, if it differs. -/
def differingReport (own : Addr) (d : Delivery) (standing : BitVec 16) (a : Addr) : Option (Addr × BitVec 16) :=
  match d.entries[a] with
  | some r => if (a = own ∨ d.peers[a].presence = .present) ∧ r.digest ≠ comparedDigest own d standing then
      some (a, r.digest) else none
  | none => none

/-- The reports of a comparison that differ, with their addresses, ascending. -/
def differingReports (own : Addr) (d : Delivery) (standing : BitVec 16) : List (Addr × BitVec 16) :=
  (List.finRange 16).filterMap (differingReport own d standing)

section
variable {own : Addr} {d : Delivery} {standing : BitVec 16}

theorem differingReport_iff {a b : Addr} {z : BitVec 16} : differingReport own d standing a = some (b, z) ↔
    a = b ∧ z ≠ comparedDigest own d standing ∧ (b = own ∨ d.peers[b].presence = .present) ∧
      ∃ r, d.entries[b] = some r ∧ r.digest = z := by
  unfold differingReport
  constructor
  · intro h
    split at h
    · next r hr =>
      split at h
      · next hc =>
        cases h
        exact ⟨rfl, hc.2, hc.1, r, hr, rfl⟩
      · cases h
    · cases h
  · rintro ⟨rfl, hz, ha, r, hr, rfl⟩
    rw [hr]
    exact if_pos ⟨ha, hz⟩

theorem mem_differingReports {a : Addr} {z : BitVec 16} : (a, z) ∈ differingReports own d standing ↔
    z ≠ comparedDigest own d standing ∧ (a = own ∨ d.peers[a].presence = .present) ∧
      ∃ r, d.entries[a] = some r ∧ r.digest = z := by
  simp only [differingReports, List.mem_filterMap, List.mem_finRange, true_and, differingReport_iff]
  exact ⟨fun ⟨b, hb⟩ => hb.2, fun h => ⟨a, rfl, h⟩⟩

theorem differing_eq : differing own d standing = (differingReports own d standing).map (·.2) := by
  unfold differing comparisonSet differingReports
  rw [List.map_filterMap, List.filter_filterMap, List.map_filterMap]
  refine List.filterMap_congr fun a _ => ?_
  unfold differingReport
  by_cases ha : a = own ∨ d.peers[a].presence = .present
  · rw [if_pos ha]
    cases d.entries[a] with
    | none => rfl
    | some r =>
      dsimp only
      by_cases hz : r.digest = comparedDigest own d standing
      · rw [if_neg fun h => h.2 hz]
        simp [hz]
      · rw [if_pos ⟨ha, hz⟩]
        simp [hz]
  · rw [if_neg ha]
    cases d.entries[a] with
    | none => rfl
    | some r =>
      dsimp only
      rw [if_neg fun h => ha h.1]
      rfl

theorem differingReports_ascending : (differingReports own d standing).Pairwise fun x y => x.1 < y.1 := by
  unfold differingReports
  rw [List.pairwise_filterMap]
  refine (List.pairwise_lt_finRange 16).imp fun {a b} hab x hx y hy => ?_
  rw [← (differingReport_iff.mp hx).1, ← (differingReport_iff.mp hy).1]
  exact hab

end

/-- A digest that is carried by more reports, or by as many and from an address no higher. -/
def Outweighs (count : BitVec 16 → Nat) (x y : Addr × BitVec 16) : Prop :=
  count y.2 < count x.2 ∨ (count y.2 = count x.2 ∧ x.1 ≤ y.1)

/-- The majority digest is one of the list, carried by the greatest number, then by the lowest address
(R121). -/
theorem majorityDigest_spec {xs : List (Addr × BitVec 16)} (hxs : xs.Pairwise fun x y => x.1 < y.1)
    (hne : xs ≠ []) : ∃ w ∈ xs, majorityDigest (xs.map (·.2)) = w.2 ∧
      ∀ x ∈ xs, Outweighs (fun z => (xs.map (·.2)).count z) w x := by
  obtain ⟨p, rest, rfl⟩ := List.exists_cons_of_ne_nil hne
  generalize hcount : (fun z => ((p :: rest).map (·.2)).count z) = count
  obtain ⟨hp, -⟩ := List.pairwise_cons.mp hxs
  have hfold : ∀ (ys : List (Addr × BitVec 16)) (b : Addr × BitVec 16) (w : Addr × BitVec 16),
      ys.foldl (keepBest fun x b => decide (count b.2 < count x.2)) (some b) = some w →
      (ys.map (·.2)).foldl (fun best x => if count best < count x then x else best) b.2 = w.2 := by
    intro ys
    induction ys with
    | nil =>
      intro b w h
      cases h
      rfl
    | cons y ys ih =>
      intro b w h
      rw [List.map_cons, List.foldl_cons]
      rw [List.foldl_cons] at h
      by_cases hlt : count b.2 < count y.2
      · rw [if_pos hlt]
        exact ih y w (by rwa [keepBest, if_pos (by simpa using hlt)] at h)
      · rw [if_neg hlt]
        exact ih b w (by rwa [keepBest, if_neg (by simpa using hlt)] at h)
  obtain ⟨w, hw, hmem, -, hall⟩ := foldl_keepBest (R := fun x y => x.1 ≤ y.1) (le := Outweighs count)
    (better := fun x b => decide (count b.2 < count x.2)) (fun x => .inr ⟨rfl, le_refl _⟩)
    (fun x y z hxy hyz => by
      rcases hxy with h | ⟨h, ha⟩ <;> rcases hyz with h' | ⟨h', ha'⟩
      · exact .inl (h'.trans h)
      · exact .inl (h' ▸ h)
      · exact .inl (h ▸ h')
      · exact .inr ⟨h'.trans h, ha.trans ha'⟩)
    (fun b x h => .inl (of_decide_eq_true h))
    (fun b x hle h => (Nat.lt_or_eq_of_le (not_lt.mp (of_decide_eq_false h))).imp id fun he => ⟨he, hle⟩)
    (hxs.imp fun h => h.le) (b := p) (List.forall_mem_cons.mpr ⟨le_refl _, fun x hx => (hp x hx).le⟩)
  refine ⟨w, hmem.elim (fun h => h ▸ List.mem_cons_self) id, ?_, hall⟩
  have := hfold (p :: rest) p w hw
  rw [← hcount] at this
  exact this

/-- The addresses whose reports differ with a digest. -/
def differingWith (own : Addr) (d : Delivery) (standing z : BitVec 16) : Finset Addr :=
  (((differingReports own d standing).filter fun x => x.2 == z).map (·.1)).toFinset

theorem mem_differingWith {own : Addr} {d : Delivery} {standing z : BitVec 16} {a : Addr} :
    a ∈ differingWith own d standing z ↔ (a, z) ∈ differingReports own d standing := by
  simp [differingWith]

theorem differingWith_card (own : Addr) (d : Delivery) (standing z : BitVec 16) :
    (differingWith own d standing z).card = (differing own d standing).count z := by
  have hnodup : (((differingReports own d standing).filter fun x => x.2 == z).map (·.1)).Nodup :=
    List.pairwise_map.mpr ((differingReports_ascending.filter _).imp fun h => h.ne)
  rw [differingWith, List.toFinset_card_of_nodup hnodup, List.length_map, differing_eq, List.count_eq_countP,
    List.countP_map, List.countP_eq_length_filter]
  rfl

section
variable {s : State}

/-! ## The DIVERGENCE record (R121) -/

theorem State.compared_records (s : State) : s.compared.2 =
    if s.beat.sync = .locked ∧ isDivergent s.own s.delivery s.lanes.digest = true ∧ s.lanes.divergence = 0 then
      [.divergence 1 (comparedDigest s.own s.delivery s.lanes.digest)
        (majorityDigest (differing s.own s.delivery s.lanes.digest))]
    else [] := by
  have hown : (s.repaired.1.setTable s.elected.after7).own = s.own := s.repaired_own
  have hzero : (s.repaired.1.setTable s.elected.after7).lanes.divergence = s.lanes.divergence :=
    s.repaired_divergence
  unfold State.compared
  by_cases hlocked : s.beat.sync = .locked
  · rw [if_pos hlocked, State.compareDigests, hown, hzero]
    by_cases hd : isDivergent s.own s.delivery s.lanes.digest = true
    · rw [if_pos hd]
      by_cases h0 : s.lanes.divergence = 0
      · exact (if_pos h0).trans (if_pos ⟨hlocked, hd, h0⟩).symm
      · exact (if_neg h0).trans (if_neg fun h => h0 h.2.2).symm
    · rw [if_neg hd, if_neg fun h => hd h.2.1]
  · rw [if_neg hlocked, if_neg fun h => hlocked h.1]

theorem differing_ne_nil {own : Addr} {d : Delivery} {standing : BitVec 16}
    (h : isDivergent own d standing = true) : differingReports own d standing ≠ [] := by
  intro hnil
  unfold isDivergent at h
  rw [differing_eq, hnil] at h
  simp at h

theorem State.compared_raises {t : State} (ht : s.ClosesTo t)
    (hdiv : t.lanes.divergence = s.beatClosed.1.compared.1.lanes.divergence) :
    s.DivergenceRaises t s.beatClosed.1.compared.2 := by
  rw [State.compared_divergence, s.beatClosed_own, s.beatClosed_lanes, ← ht.beat,
    State.delivery_of_closesTo ht] at hdiv
  rw [State.compared_records, s.beatClosed_own, s.beatClosed_lanes, ← ht.beat, State.delivery_of_closesTo ht]
  generalize hd : ({ entries := s.census.entries, peers := t.census.peers, m := s.laneCount } : Delivery) = d at *
  unfold State.DivergenceRaises
  intro own differs leaves
  have hown : own = comparedDigest s.own d s.lanes.digest := hd ▸ rfl
  have hdiffers : ∀ (z : BitVec 16) (a : Addr),
      a ∈ differingWith s.own d s.lanes.digest z ↔ differs a z := fun z a => by
    rw [mem_differingWith, mem_differingReports, ← hown, ← hd]
  have hleaves : leaves ↔ t.beat.sync = .locked ∧ isDivergent s.own d s.lanes.digest = true ∧
      s.lanes.divergence = 0 := by
    constructor
    · rintro ⟨hsync, h0, h1⟩
      refine ⟨hsync, ?_, h0⟩
      by_contra hno
      rw [if_neg fun h => hno h.2, h1] at hdiv
      cases hdiv
    · rintro ⟨hsync, hyes, h0⟩
      exact ⟨hsync, h0, by rw [hdiv, if_pos ⟨hsync, hyes⟩, h0]⟩
  refine ⟨fun hno => if_neg fun h => hno (hleaves.mpr h), fun hyes => ?_⟩
  obtain ⟨w, hw, hmost, hall⟩ := majorityDigest_spec differingReports_ascending
    (differing_ne_nil (hleaves.mp hyes).2.1)
  rw [← differing_eq] at hmost hall
  refine ⟨w.2, differingWith s.own d s.lanes.digest, ?_, hdiffers, ⟨w.1, mem_differingWith.mpr hw⟩,
    fun z ⟨a, ha⟩ => ?_⟩
  · rw [if_pos (hleaves.mp hyes), hmost, hown]
  · rw [differingWith_card, differingWith_card]
    have hza := hall (a, z) (mem_differingWith.mp ha)
    refine hza.imp id fun ⟨heq, _⟩ => ⟨heq, fun b hb => ⟨w.1, mem_differingWith.mpr hw, ?_⟩⟩
    rcases hall (b, z) (mem_differingWith.mp hb) with hlt | ⟨-, hle⟩
    · exact absurd heq (Nat.ne_of_lt hlt)
    · exact hle

/-! ## The REPAIR records (R113, R114) -/

/-- The records of lane `l` at the census close of `s` that leads to `t`: the GATE record of an own loss, the
REPAIR record (R113, R114). -/
def State.laneRepairs (s t : State) (l : Lane) : List RecordBody :=
  match s.winnersAt t l with
  | none => []
  | some w => if s.lanes.table[l].owner = some w.addr then [] else
      (if (t.beat.sync = .entering ∨ t.beat.sync = .locked) ∧ s.lanes.table.laneOf s.own = some l then
        [.gate l false .conflict] else []) ++
      [RecordBody.repair l
        (if (t.beat.sync = .conflict ∧ s.beat.sync ≠ .conflict) ∧ s.lanes.table[l].owner = some s.own then none
          else s.lanes.table[l].owner)
        w.addr]

theorem State.laneRepairs_none {t : State} {l : Lane} (h : adoption (s.winnersAt t) s.lanes.table l = none) :
    s.laneRepairs t l = [] := by
  unfold State.laneRepairs
  unfold adoption at h
  cases hw : s.winnersAt t l with
  | none => rfl
  | some w =>
    rw [hw] at h
    refine if_pos ?_
    by_contra hne
    exact nomatch (if_neg hne).symm.trans h

theorem State.laneRepairs_some {t : State} {l : Lane} {w : Announcement}
    (h : adoption (s.winnersAt t) s.lanes.table l = some w) : s.laneRepairs t l =
      (if (t.beat.sync = .entering ∨ t.beat.sync = .locked) ∧ s.lanes.table.laneOf s.own = some l then
        [.gate l false .conflict] else []) ++
      [RecordBody.repair l
        (if (t.beat.sync = .conflict ∧ s.beat.sync ≠ .conflict) ∧ s.lanes.table[l].owner = some s.own then none
          else s.lanes.table[l].owner)
        w.addr] := by
  obtain ⟨hw, hne⟩ := adoption_some h
  unfold State.laneRepairs
  rw [hw]
  exact if_neg hne

theorem repairRecord_eq {win : Lane → Option Announcement} {before : LaneTable} {l : Lane} :
    (adoption win before l = none → repairRecord win before l = []) ∧
    (∀ w, adoption win before l = some w → repairRecord win before l = [.repair l before[l].owner w.addr]) := by
  unfold repairRecord
  refine ⟨fun h => ?_, fun w h => ?_⟩ <;> rw [h]

/-- The GATE record of a loss to repair comes with the REPAIR record of its lane (R114, R165). -/
theorem State.repaired_record (s : State) (l : Lane) :
    (adoption s.winners s.lanes.table l = none → s.lanes.table.laneOf s.own = some l → s.repaired.2 = []) ∧
    (∀ w, adoption s.winners s.lanes.table l = some w → s.lanes.table.laneOf s.own = some l →
      s.repaired.2 = [.gate l false .conflict]) := by
  refine ⟨fun hnone hl => ?_, fun w hw hl => ?_⟩
  · have hloses : s.losesLane = false := Bool.eq_false_iff.mpr fun h => by
      obtain ⟨k, w, hk, hw⟩ := State.losesLane_iff.mp h
      rw [hl] at hk
      cases hk
      rw [hnone] at hw
      cases hw
    rw [State.repaired_kept hloses]
  · rw [State.repaired_lost (State.losesLane_iff.mpr ⟨l, w, hl, hw⟩), State.cutOwnLane_of_owner hl]

/-- The REPAIR records of an election (R113, R114). -/
theorem State.election_repairs {t : State} (ht : s.ClosesTo t) (hrep : t.beat.sync.reports = true) :
    repairRecords s.beatClosed.1.winners s.beatClosed.1.lanes.table
      (s.beatClosed.1.lanes.table.laneOf s.beatClosed.1.own) s.beatClosed.1.repaired.2 =
      (List.finRange 4).flatMap (s.laneRepairs t) := by
  have helects := SyncState.reports_iff.mp hrep
  have hnc : ¬ (t.beat.sync = .conflict ∧ s.beat.sync ≠ .conflict) := fun h => by
    rw [h.1] at hrep
    cases hrep
  have hgate := s.beatClosed.1.repaired_record
  rw [State.winners_of_closesTo ht, s.beatClosed_lanes, s.beatClosed_own] at hgate ⊢
  refine List.flatMap_congr fun l _ => ?_
  obtain ⟨hfree, hlost⟩ := hgate l
  cases hw : adoption (s.winnersAt t) s.lanes.table l with
  | none =>
    rw [State.laneRepairs_none hw, repairRecord_eq.1 hw, List.append_nil]
    split
    · next hl => exact hfree hw hl
    · rfl
  | some w =>
    rw [State.laneRepairs_some hw, repairRecord_eq.2 w hw]
    by_cases hl : s.lanes.table.laneOf s.own = some l
    · rw [if_pos hl, if_pos ⟨helects, hl⟩, hlost w hw hl, if_neg fun h => hnc h.1]
    · rw [if_neg hl, if_neg fun h => hl h.2, if_neg fun h => hnc h.1]

/-- The REPAIR records of follow mode (R113). -/
theorem State.follow_repairs {t : State} (ht : s.ClosesTo t) (hrep : t.beat.sync.reports = false)
    (hc : s.slotConflict = false) :
    repairRecords s.beatClosed.1.winners s.beatClosed.1.lanes.table none [] =
      (List.finRange 4).flatMap (s.laneRepairs t) := by
  have helects : ¬ (t.beat.sync = .entering ∨ t.beat.sync = .locked) := fun h => by
    rw [SyncState.reports_iff.mpr h] at hrep
    cases hrep
  have hnc : ¬ (t.beat.sync = .conflict ∧ s.beat.sync ≠ .conflict) := fun h => by
    rw [ht.beat, ← State.slotConflict_iff_enters, hc] at h
    cases h
  rw [State.winners_of_closesTo ht, s.beatClosed_lanes]
  refine List.flatMap_congr fun l _ => ?_
  cases hw : adoption (s.winnersAt t) s.lanes.table l with
  | none => rw [State.laneRepairs_none hw, repairRecord_eq.1 hw, List.append_nil, if_neg nofun]
  | some w =>
    rw [State.laneRepairs_some hw, repairRecord_eq.2 w hw, if_neg nofun, if_neg fun h => helects h.1,
      if_neg fun h => hnc h.1]

/-- The REPAIR records at the entry into CONFLICT, after the own lane is cut (R106, R113). -/
theorem State.conflict_repairs {t : State} (ht : s.ClosesTo t) (hc : s.slotConflict = true) :
    s.beatClosed.1.conflictEntry.1.follow.2 = (List.finRange 4).flatMap (s.laneRepairs t) := by
  have henters := State.slotConflict_iff_enters.mp hc
  rw [← ht.beat] at henters
  have helects : ¬ (t.beat.sync = .entering ∨ t.beat.sync = .locked) := by
    rw [henters.1]
    decide
  have hown : ∀ l w, s.winnersAt t l = some w → w.addr ≠ s.own := fun _ _ => State.winnersAt_ne_own hc ht
  have hrecords : s.beatClosed.1.conflictEntry.1.follow.2 =
      repairRecords (s.winnersAt t) (s.lanes.table.without s.own) none [] := by
    rw [← State.conflictEntry_winners hc ht, ← s.conflictEntry_table]
    rfl
  rw [hrecords]
  refine List.flatMap_congr fun l _ => ?_
  have hsame := congrFun (adoption_without (before := s.lanes.table) hown) l
  cases hw : adoption (s.winnersAt t) s.lanes.table l with
  | none => rw [State.laneRepairs_none hw, repairRecord_eq.1 (hsame.trans hw), List.append_nil, if_neg nofun]
  | some w =>
    rw [State.laneRepairs_some hw, repairRecord_eq.2 w (hsame.trans hw), if_neg nofun, if_neg fun h => helects h.1,
      LaneTable.without_get]
    by_cases ho : s.lanes.table[l].owner = some s.own
    · rw [if_pos ho, if_pos ⟨henters, ho⟩]
      rfl
    · rw [if_neg ho, if_neg fun h => ho h.2]

/-! ## The GATE record of stage 9 (R100, R101, R103) -/

theorem State.decided_raises {t : State} (ht : s.ClosesTo t) (hrep : t.beat.sync.reports = true)
    (hlegal : s.lanes.table.Legal s.laneCount) : s.GateRaises t s.beatClosed.1.decided.2 := by
  have helects := SyncState.reports_iff.mp hrep
  have hownc : s.beatClosed.1.compared.1.own = s.own := by rw [State.compared_own, s.beatClosed_own]
  have hpending : s.beatClosed.1.losesLane = false →
      s.beatClosed.1.compared.1.lanes.releasePending = s.lanes.releasePending := fun h => by
    rw [State.compared_kept h, s.beatClosed_lanes]
  have hlostiff := State.lost_of_closesTo ht
  rw [State.decided, State.elected_of_closesTo ht hlegal, s.beatClosed_lanes]
  generalize s.beatClosed.1.compared.1 = c at hownc hpending ⊢
  unfold State.GateRaises
  intro e elects
  refine ⟨fun hno => absurd helects hno, fun _ hnone h7 => ?_, fun _ hnone l h7 => ?_, fun _ l hl => ⟨?_, ?_⟩⟩
  · rw [State.ownerSide_none (by rwa [hownc]), hownc]
    rw [show (s.electionAt t).after7.laneOf s.own = none from h7]
  · rw [State.ownerSide_none (by rwa [hownc]), hownc]
    rw [show (s.electionAt t).after7.laneOf s.own = some l from h7]
  · rintro ⟨w, hw⟩
    rw [hlostiff.mpr ⟨l, w, hl, hw⟩, State.ownerSide_lost (by rwa [hownc])]
  · intro hno
    have hloses : s.beatClosed.1.losesLane = false := Bool.eq_false_iff.mpr fun h => by
      obtain ⟨k, w, hk, hw⟩ := hlostiff.mp h
      rw [hl] at hk
      cases hk
      exact hno w hw
    have hcl : s.lanes.table.laneOf c.own = some l := by rw [hownc, hl]
    rw [hloses]
    refine ⟨fun h2 reason hr => ?_, fun h2 h6 => ?_, fun h2 h6 h7 => ?_, fun h2 h6 h7 => ?_⟩
    · rw [State.ownerSide_freed hcl (by rw [hownc]; exact h2), hpending hloses, hr]
    · rw [State.ownerSide_taken hcl (by rw [hownc]; exact h2) (by rw [hownc]; exact h6)]
    · rw [State.ownerSide_preempted hcl (by rw [hownc]; exact h2) (by rw [hownc]; exact h6)
        (by rw [hownc]; exact h7)]
    · rw [State.ownerSide_kept hcl (by rw [hownc]; exact h2) (by rw [hownc]; exact h6) (by rw [hownc]; exact h7)]

/-! ## The records together (R165) -/

theorem State.decided_request (s : State) : s.decided.1.lanes.request = s.lanes.request := by
  rw [State.decided, State.ownerSide_lanes_request, State.compared_frame]
  unfold State.repaired
  split
  · exact State.cutOwnLane_lanes_request _ _
  · rfl

theorem State.settleOwn_records (s : State) : s.settleOwn.2 =
    if s.lanes.table.laneOf s.own ≠ none ∧ s.lanes.request ≠ .none then [.request .none 0] else [] := by
  unfold State.settleOwn State.endRequest
  cases s.lanes.table.laneOf s.own with
  | none => exact (if_neg fun h => h.1 rfl).symm
  | some l =>
    by_cases hr : s.lanes.request = .none
    · exact (if_pos hr).trans (if_neg fun h => h.2 hr).symm
    · exact (if_neg hr).trans (if_pos ⟨nofun, hr⟩).symm

/-- The GATE record of a lane cut at the entry into CONFLICT (R106). -/
def State.entryCut (s t : State) : List RecordBody :=
  match s.lanes.table.laneOf s.own with
  | some l => if t.beat.sync = .conflict ∧ s.beat.sync ≠ .conflict then [.gate l false .conflict] else []
  | none => []

theorem State.entryCut_stays {t : State} (h : ¬ (t.beat.sync = .conflict ∧ s.beat.sync ≠ .conflict)) :
    s.entryCut t = [] := by
  unfold State.entryCut
  split
  · exact if_neg h
  · rfl

theorem State.entryCut_enters {t : State} (h : t.beat.sync = .conflict ∧ s.beat.sync ≠ .conflict) :
    s.beatClosed.1.conflictEntry.2.1 = s.entryCut t := by
  unfold State.conflictEntry State.cutOwnLane State.entryCut
  rw [s.beatClosed_lanes, s.beatClosed_own]
  cases s.lanes.table.laneOf s.own with
  | none => rfl
  | some l => exact (if_pos h).symm

theorem State.conflictEntry_request (s : State) : s.conflictEntry.2.2 =
    if s.lanes.request ≠ .none then [.request .none 0] else [] := by
  have hend : s.conflictEntry.2.2 =
      if (s.cutOwnLane .conflict).1.lanes.request = .none then [] else [.request .none 0] := rfl
  rw [hend, State.cutOwnLane_lanes_request, ite_not]

/-- What the lane manager hands the status port at the census close of `s` that leads to `t`, with its
DIVERGENCE record and the GATE record of stage 9 (R165). -/
def State.lanesRaise (s t : State) (divergence gate : List RecordBody) : List RecordBody :=
  s.entryCut t ++ (List.finRange 4).flatMap (s.laneRepairs t) ++ divergence ++ gate ++
  (if ((t.beat.sync = .conflict ∧ s.beat.sync ≠ .conflict) ∨
      (t.beat.sync = .entering ∨ t.beat.sync = .locked) ∧ t.lanes.table.laneOf s.own ≠ none) ∧
      s.lanes.request ≠ .none then [.request .none 0] else [])

/-- No DIVERGENCE record and no GATE record of stage 9 without an election (R90, R119). -/
theorem State.raises_nothing {t : State} (hrep : t.beat.sync.reports = false) (h0 : t.lanes.divergence = 0) :
    ¬ (t.beat.sync = .entering ∨ t.beat.sync = .locked) ∧ s.DivergenceRaises t [] ∧ s.GateRaises t [] := by
  have hno : ¬ (t.beat.sync = .entering ∨ t.beat.sync = .locked) := fun h => by
    rw [SyncState.reports_iff.mpr h] at hrep
    cases hrep
  refine ⟨hno, ⟨fun _ => rfl, fun ⟨_, _, h1⟩ => ?_⟩, fun _ => rfl, fun h => absurd h hno,
    fun h => absurd h hno, fun h => absurd h hno⟩
  rw [h0] at h1
  cases h1

theorem State.lanesClosed_records {t : State} (h : s.beat.sync.receives = true)
    (hlegal : s.lanes.table.Legal s.laneCount) (ht : s.ClosesTo t) (hlanes : t.lanes = s.lanesClosed.1.lanes) :
    ∃ divergence gate, s.DivergenceRaises t divergence ∧ s.GateRaises t gate ∧
      s.lanesClosed.2 = s.lanesRaise t divergence gate := by
  have hstays : s.slotConflict = false → ¬ (t.beat.sync = .conflict ∧ s.beat.sync ≠ .conflict) := fun hc h => by
    rw [ht.beat, ← State.slotConflict_iff_enters, hc] at h
    cases h
  rcases State.lanesClosed_cases h with ⟨hrep, hc, he⟩ | ⟨hrep, hc, he⟩ | ⟨hconf, hc, he⟩ <;>
    rw [he] at hlanes ⊢
  · rw [← ht.beat] at hrep
    have hnc := hstays hc
    have helects := SyncState.reports_iff.mp hrep
    have htable : t.lanes.table = s.beatClosed.1.decided.1.lanes.table := by
      rw [hlanes, State.election_elected, State.decided_table]
    refine ⟨_, _, State.compared_raises ht (by rw [hlanes, State.election_divergence]),
      State.decided_raises ht hrep hlegal, ?_⟩
    rw [State.election_eq, State.lanesRaise, State.entryCut_stays hnc, State.election_repairs ht hrep,
      State.settleOwn_records, State.decided_own, State.decided_request, ← htable, s.beatClosed_own,
      s.beatClosed_lanes, List.nil_append]
    simp only [hnc, helects, false_or, true_and]
  · rw [← ht.beat] at hrep
    have hnc := hstays hc
    obtain ⟨hno, hdiv, hgate⟩ := s.raises_nothing hrep (congrArg LaneManager.divergence hlanes)
    refine ⟨[], [], hdiv, hgate, ?_⟩
    rw [State.lanesRaise, State.entryCut_stays hnc, ← State.follow_repairs ht hrep hc]
    simp only [hnc, hno, false_or, false_and, if_false, List.append_nil, List.nil_append]
    rfl
  · have henters := State.slotConflict_iff_enters.mp hc
    rw [← ht.beat] at henters
    obtain ⟨-, hdiv, hgate⟩ := s.raises_nothing (by rw [henters.1]; rfl) (congrArg LaneManager.divergence hlanes)
    refine ⟨[], [], hdiv, hgate, ?_⟩
    rw [State.lanesRaise, State.entryCut_enters henters, State.conflict_repairs ht hc, State.conflictEntry_request,
      s.beatClosed_lanes]
    simp only [henters, ne_eq, not_false_eq_true, and_self, true_or, true_and, List.append_nil]

end

/-- Settles O32. -/
theorem censusCloseHandsOverItsRecords : Obligations.CensusCloseHandsOverItsRecords := by
  intro s hr hl ha hlegal
  have hrec := SyncState.receives_iff.mpr ⟨hl, ha⟩
  have hu : (s.elapseTo 1600).beat.sync.receives = true := hrec
  have hlegal' : (s.elapseTo 1600).lanes.table.Legal (s.elapseTo 1600).laneCount := hlegal
  obtain ⟨t, hexec, hdiv, hstays⟩ := exec_censusClose_spec hr hrec
  by_cases hsync : t.beat.sync = .listen
  · exact ⟨t, [], [], [], [], hexec, hdiv, fun h => absurd hsync h⟩
  have ht := hstays hsync
  have hclose : (s.elapseTo 1600).ClosesTo t := ht ▸ State.lanesClosed_closesTo _ _
  have hlanes : t.lanes = (s.elapseTo 1600).lanesClosed.1.lanes := by rw [ht]; rfl
  obtain ⟨-, -, -, -, -, -, -, -, hstatus, -, -, -⟩ := State.lanesClosed_frame hu ht
  obtain ⟨divergence, gate, hdivergence, hgate, hrecords⟩ := State.lanesClosed_records hu hlegal' hclose hlanes
  have hpeers := State.closeCensus_raises hclose
  have hraised := State.beatClosed_raises hclose
  rw [State.closeRecords, hrecords, State.lanesRaise] at hstatus
  simp only [← List.append_assoc] at hstatus
  exact ⟨t, _, _, divergence, gate, hexec, hdiv, fun _ => ⟨hpeers, hraised, hdivergence, hgate, hstatus⟩⟩

end Sys2Proof.Machine

/-! SUPPORT. The own-slot collision counter, the own-slot conflict, and the sync state at a census close. -/

namespace Sys2Proof.Machine

section
variable {s : State}

/-! ## How a census close ends -/

/-- A census close that leads to LISTEN is a rejoin after the lane manager (R122). -/
theorem State.censusClose_rejoins (h : s.beat.sync.receives = true) (hsync : s.censusClose.beat.sync = .listen) :
    4 ≤ s.lanesClosed.1.lanes.divergence ∧ s.censusClose =
      (s.lanesClosed.1.rejoin .diverged).1.raise (s.closeRecords ++ (s.lanesClosed.1.rejoin .diverged).2) := by
  rcases s.lanesClosed.1.rejoinIfDiverged_cases with ⟨h4, hr⟩ | ⟨-, hr⟩
  · refine ⟨h4, ?_⟩
    rw [State.censusClose_eq, hr]
    rfl
  · have hstay : s.censusClose.beat.sync = s.beatClosed.1.beat.sync := by
      rw [State.censusClose_eq, hr, State.raise_beat, s.lanesClosed_beat]
    rw [hstay] at hsync
    exact absurd hsync (SyncState.receives_iff.mp (State.beatClosed_sync_receives h)).1

/-- Outside a rejoin the beat unit's decisions stand (R55 to R59). -/
theorem State.censusClose_closesTo (h : s.censusClose.beat.sync ≠ .listen) : s.ClosesTo s.censusClose := by
  rw [State.censusClose_stays h]
  exact s.lanesClosed_closesTo _

/-- A divergence counter that stays below 4 leaves the node on the line. -/
theorem State.censusClose_undiverged (h : s.beat.sync.receives = true)
    (hdiv : s.lanesClosed.1.lanes.divergence < 4) : s.censusClose.beat.sync ≠ .listen := fun hsync =>
  absurd (State.censusClose_rejoins h hsync).1 (by omega)

theorem State.censusClose_undiverged_before (h : s.beat.sync.receives = true) (hdiv : s.lanes.divergence < 3) :
    s.censusClose.beat.sync ≠ .listen :=
  State.censusClose_undiverged h (by have := State.lanesClosed_divergence_le h; omega)

/-! ## The own-slot collision counter (R70) -/

theorem ownSlotCollisions_counts {sync : SyncState} {count : Nat} (h : sync.reports = true) :
    ownSlotCollisions sync (some .clean) count = (0, false) ∧
    (count = 0 → ownSlotCollisions sync (some .collision) count = (1, false)) ∧
    (count = 1 → ownSlotCollisions sync (some .collision) count = (0, true)) ∧
    ownSlotCollisions sync none count = (count, false) := by
  unfold ownSlotCollisions
  refine ⟨if_pos h, ?_, ?_, if_pos h⟩ <;> rintro rfl <;> exact if_pos h

theorem State.slotConflict_eq_false (h : s.census.readback = some .collision → s.census.ownCollisions = 0) :
    s.slotConflict = false := Bool.eq_false_iff.mpr fun hc => by
  obtain ⟨-, hread, hle⟩ := State.slotConflict_iff.mp hc
  rw [h hread] at hle
  exact absurd hle (by decide)

theorem State.enter_ownCollisions (s : State) : s.enter.1.census.ownCollisions = s.census.ownCollisions := by
  unfold State.enter State.becomeLocked State.changeSync
  extract_lets mismatch
  split
  · rfl
  · split
    · split <;> rfl
    · rfl
    · rfl

theorem State.beatAtCensus_entering (h : s.beat.sync = .entering) : s.beatAtCensus false = s.enter := by
  unfold State.beatAtCensus
  rw [h]
  rfl

theorem State.beatAtCensus_selects (h : s.beat.sync = .locked) :
    s.beatAtCensus false = (s.selectHolder, []) := by
  unfold State.beatAtCensus
  rw [h]
  rfl

/-- A collision that is no conflict keeps an ENTERING node out of LOCKED (R57). -/
theorem State.enter_collision (h : s.census.readback = some .collision) (hs : s.beat.sync = .entering) :
    s.enter.1.beat.sync ≠ .locked := by
  unfold State.enter State.changeSync
  extract_lets mismatch
  split
  · exact nofun
  · rw [h]
    show s.beat.sync ≠ .locked
    rw [hs]
    decide

/-- The census close of an ENTERING or LOCKED node without an own-slot conflict (R57, R70). -/
theorem State.beatClosed_reporting (hs : s.beat.sync = .entering ∨ s.beat.sync = .locked)
    (hno : s.census.readback = some .collision → s.census.ownCollisions = 0) :
    s.beatClosed.1.beat.sync ≠ .conflict ∧
    (s.beat.sync = .locked → s.beatClosed.1.beat.sync = .locked) ∧
    (s.census.readback = some .collision → s.beatClosed.1.beat.sync ≠ .locked ∨ s.beat.sync = .locked) ∧
    s.beatClosed.1.census.ownCollisions = match s.census.readback with
      | some .clean => 0
      | some .collision => 1
      | none => s.census.ownCollisions := by
  have hc := State.slotConflict_eq_false hno
  have hcount : s.closeCensus.census.ownCollisions = match s.census.readback with
      | some .clean => 0
      | some .collision => 1
      | none => s.census.ownCollisions := by
    obtain ⟨hclean, hfirst, -, hnone⟩ :=
      ownSlotCollisions_counts (count := s.census.ownCollisions) (SyncState.reports_iff.mpr hs)
    show (ownSlotCollisions s.beat.sync s.census.readback s.census.ownCollisions).1 = _
    cases hread : s.census.readback with
    | none => rw [hnone]
    | some o =>
      cases o with
      | clean => rw [hclean]
      | collision => rw [hfirst (hno hread)]
  have hne : s.beatClosed.1.beat.sync ≠ .conflict := fun h => by
    have hs' : s.beat.sync ≠ .conflict := by rcases hs with h | h <;> rw [h] <;> decide
    rw [State.slotConflict_iff_enters.mpr ⟨h, hs'⟩] at hc
    cases hc
  refine ⟨hne, fun hlocked => ?_, fun hread => ?_, ?_⟩
  · rw [State.beatClosed, State.beatAtCensus_locked (s := s.closeCensus) hlocked, hc]
    rfl
  · rcases hs with he | hl
    · left
      rw [State.beatClosed, hc, State.beatAtCensus_entering (s := s.closeCensus) he]
      exact State.enter_collision (s := s.closeCensus) hread he
    · exact .inr hl
  · rw [← hcount, State.beatClosed, hc]
    rcases hs with he | hl
    · rw [State.beatAtCensus_entering (s := s.closeCensus) he]
      exact s.closeCensus.enter_ownCollisions
    · rw [State.beatAtCensus_selects (s := s.closeCensus) hl]
      rfl

/-! ## The own-slot conflict (R58, R71, R106) -/

/-- The lane manager at the entry into CONFLICT: no own lane, no request (R106). -/
theorem State.lanesClosed_conflict (h : s.beat.sync.receives = true) (hc : s.slotConflict = true) :
    s.lanesClosed.1 = s.beatClosed.1.conflictEntry.1.follow.1 := by
  rcases State.lanesClosed_cases h with ⟨-, hno, -⟩ | ⟨-, hno, -⟩ | ⟨-, -, he⟩
  · rw [hc] at hno
    cases hno
  · rw [hc] at hno
    cases hno
  · rw [he]

theorem State.conflict_bare (hc : s.slotConflict = true) :
    s.beatClosed.1.conflictEntry.1.follow.1.lanes.Bare s.own := by
  have hbare := s.beatClosed.1.conflictEntry_bare
  rw [s.beatClosed_own] at hbare
  refine State.follow_bare ?_ hbare
  rw [State.conflictEntry_census, State.beatClosed_conflict hc]
  exact congrArg PeerEntry.presence (State.enterConflict_absent s.closeCensus)

theorem State.conflict_flags {l : Lane} (hl : s.lanes.table.laneOf s.own = some l) :
    s.beatClosed.1.conflictEntry.1.follow.1.lanes.releasePending = none ∧
      s.beatClosed.1.conflictEntry.1.follow.1.lanes.idleHold = false ∧
      s.beatClosed.1.conflictEntry.1.follow.1.lanes.laneCollisions = 0 := by
  have hcut : s.beatClosed.1.lanes.table.laneOf s.beatClosed.1.own = some l := by
    rw [s.beatClosed_lanes, s.beatClosed_own, hl]
  rw [State.follow_lanes_releasePending, State.follow_lanes_idleHold, State.follow_lanes_laneCollisions]
  unfold State.conflictEntry
  rw [State.cutOwnLane_of_owner hcut]
  exact ⟨rfl, rfl, rfl⟩

end

/-- The own-slot conflict, on the state whose time has passed. -/
theorem State.censusClose_conflict {s : State} (hs : s.beat.sync = .entering ∨ s.beat.sync = .locked)
    (hread : s.census.readback = some .collision) (hone : s.census.ownCollisions = 1) :
    let t := s.censusClose
    t.beat.sync = .conflict ∧ t.beat.candidate = false ∧ t.beat.holderCond = false ∧
      t.beat.rank = none ∧ t.beat.entCount = 0 ∧
      t.census.conflictWait = 250 ∧ t.census.ownCollisions = 0 ∧
      t.census.peers[s.own] = { presence := .absent, good := 0, miss := 0 } ∧
      t.lanes.request = .none ∧ t.lanes.waitAge = 0 ∧ t.lanes.divergence = 0 ∧
      t.lanes.digest = t.lanes.table.digest ∧
      (∀ l : Lane, t.lanes.table[l].owner ≠ some s.own ∧ t.lanes.slotCopy[l].owner ≠ some s.own) ∧
      (s.lanes.table.laneOf s.own ≠ none →
        t.audio.tx = none ∧ t.lanes.releasePending = none ∧ t.lanes.idleHold = false ∧
        t.lanes.laneCollisions = 0 ∧
        t.line.tx = s.line.tx.map fun x =>
          if x.kind = .lane then { x with bits := x.bits.take (x.sent + 1) } else x) ∧
      (s.lanes.table.laneOf s.own = none → t.audio.tx = s.audio.tx ∧ t.line.tx = s.line.tx) := by
  have hrep : s.beat.sync.reports = true := SyncState.reports_iff.mpr hs
  have hrec : s.beat.sync.receives = true := by rcases hs with h | h <;> rw [h] <;> rfl
  have hc : s.slotConflict = true := State.slotConflict_iff.mpr ⟨hrep, hread, hone.ge⟩
  have hlanes := State.lanesClosed_conflict hrec hc
  have hstays : s.censusClose.beat.sync ≠ .listen :=
    State.censusClose_undiverged hrec (by rw [hlanes]; exact (by decide : (0 : Nat) < 4))
  have ht := State.censusClose_stays hstays
  have hclose := State.censusClose_closesTo hstays
  have hb := State.beatClosed_conflict hc
  intro t
  have hbeat : t.beat = s.closeCensus.enterConflict.1.beat := hclose.beat.trans (by rw [hb])
  have hcensus : t.census = s.closeCensus.enterConflict.1.census := hclose.census.trans (by rw [hb])
  have htl : t.lanes = s.beatClosed.1.conflictEntry.1.follow.1.lanes :=
    (congrArg State.lanes ht).trans ((State.raise_lanes _ _).trans (by rw [hlanes]))
  obtain ⟨hreq, htable, hcopy⟩ := State.conflict_bare hc
  obtain ⟨hcut, huncut⟩ := State.lanesClosed_sent hrec hclose
  have haudio : t.audio = s.lanesClosed.1.audio := (congrArg State.audio ht).trans rfl
  have hline : t.line = s.lanesClosed.1.line := (congrArg State.line ht).trans rfl
  have hcollisions : s.closeCensus.census.ownCollisions = 0 := by
    show (ownSlotCollisions s.beat.sync s.census.readback s.census.ownCollisions).1 = 0
    rw [hread, (ownSlotCollisions_counts hrep).2.2.1 hone]
  have hsync : t.beat.sync = .conflict ∧ s.beat.sync ≠ .conflict := by
    rw [hclose.beat]
    exact State.slotConflict_iff_enters.mp hc
  rw [haudio, hline, htl, hbeat, hcensus]
  refine ⟨rfl, rfl, rfl, rfl, rfl, rfl, hcollisions, State.enterConflict_absent s.closeCensus, hreq, rfl, rfl,
    State.follow_digest _, fun l => ⟨LaneTable.laneOf_none.mp htable l, LaneTable.laneOf_none.mp hcopy l⟩,
    fun hne => ?_, fun hnone => ?_⟩
  · obtain ⟨l, hl⟩ := Option.ne_none_iff_exists'.mp hne
    obtain ⟨hca, -, hcl⟩ := hcut ⟨l, hl, .inl hsync⟩
    obtain ⟨hpending, hidle, hcoll⟩ := State.conflict_flags hl
    rw [hca, hcl]
    exact ⟨rfl, hpending, hidle, hcoll, rfl⟩
  · obtain ⟨hca, -, hcl⟩ := huncut fun ⟨l, hl, _⟩ => by rw [hnone] at hl; cases hl
    rw [hca, hcl]
    exact ⟨rfl, rfl⟩

/-- Settles O33. -/
theorem secondOwnCollisionIsConflict : Obligations.SecondOwnCollisionIsConflict := by
  have hreceives : ∀ {s : State}, s.beat.sync = .entering ∨ s.beat.sync = .locked →
      s.beat.sync.receives = true := fun h => by rcases h with h | h <;> rw [h] <;> rfl
  refine ⟨fun s hr hs hno => ?_, fun s hr hs hread hone => ?_⟩
  · have hrec := hreceives hs
    have hu : (s.elapseTo 1600).beat.sync.receives = true := hrec
    obtain ⟨hne, hlocked, hcollided, hcount⟩ := State.beatClosed_reporting (s := s.elapseTo 1600) hs hno
    refine ⟨_, exec_censusClose_receives hr hrec, fun h => ?_,
      fun hdiv => State.censusClose_undiverged_before hu hdiv, fun hlisten => ?_, fun hstays => ?_⟩
    · rw [(State.censusClose_closesTo (h ▸ nofun)).beat] at h
      exact hne h
    · rw [(State.censusClose_rejoins hu hlisten).2, State.raise_census, State.rejoin_census]
      rfl
    · have hclose := State.censusClose_closesTo hstays
      rw [hclose.beat, hclose.census]
      exact ⟨hlocked, hcollided, hcount⟩
  · exact ⟨_, exec_censusClose_receives hr (hreceives hs), State.censusClose_conflict (s := s.elapseTo 1600) hs hread
      hone⟩

end Sys2Proof.Machine

/-! SUPPORT. The holder and the own rank (R59). -/

namespace Sys2Proof.Machine

/-! ## Positions in an ascending list of addresses -/

section
variable {as : List Addr} {a b : Addr} {i : Nat}

/-- What stands before an element of an ascending list is what is lower. -/
theorem mem_take_iff_lt (has : as.Pairwise (· < ·)) (hi : as[i]? = some a) :
    b ∈ as.take i ↔ b ∈ as ∧ b < a := by
  obtain ⟨hlt, ha⟩ := List.getElem?_eq_some_iff.mp hi
  have hsplit : as.take i ++ a :: as.drop (i + 1) = as := by
    rw [← ha, ← List.drop_eq_getElem_cons, List.take_append_drop]
  have hpair := List.pairwise_append.mp (hsplit.symm ▸ has)
  obtain ⟨-, htail, hcross⟩ := hpair
  constructor
  · exact fun hb => ⟨List.mem_of_mem_take hb, hcross b hb a List.mem_cons_self⟩
  · rintro ⟨hb, hba⟩
    rw [← hsplit] at hb
    rcases List.mem_append.mp hb with hb | hb
    · exact hb
    · rcases List.mem_cons.mp hb with rfl | hb
      · exact absurd hba (lt_irrefl _)
      · exact absurd hba (lt_asymm ((List.pairwise_cons.mp htail).1 b hb))

theorem head?_ascending_iff (has : as.Pairwise (· < ·)) :
    as.head? = some a ↔ a ∈ as ∧ ∀ b, b < a → b ∉ as := by
  cases as with
  | nil => simp
  | cons x rest =>
    obtain ⟨hx, -⟩ := List.pairwise_cons.mp has
    rw [List.head?_cons]
    constructor
    · intro h
      cases h
      refine ⟨List.mem_cons_self, fun b hb hmem => ?_⟩
      rcases List.mem_cons.mp hmem with rfl | hmem
      · exact lt_irrefl _ hb
      · exact lt_asymm hb (hx b hmem)
    · rintro ⟨hmem, hlow⟩
      rcases List.mem_cons.mp hmem with rfl | hmem
      · rfl
      · exact absurd List.mem_cons_self (hlow x (hx a hmem))

/-- The rank of an address is its position behind the first of the list (R59). -/
theorem rankIn_iff (has : as.Pairwise (· < ·)) {r : Fin 15} :
    rankIn a as = some r ↔ as[r.val + 1]? = some a := by
  have htail : as.tail.Nodup := (has.imp fun h => ne_of_lt h).tail
  have hidx : ∀ j : Nat, as.tail.findIdx? (· == a) = some j ↔ as[j + 1]? = some a := fun j => by
    rw [List.findIdx?_eq_some_iff_getElem, ← List.getElem?_tail, List.getElem?_eq_some_iff]
    constructor
    · rintro ⟨hj, ha, -⟩
      exact ⟨hj, by simpa using ha⟩
    · rintro ⟨hj, ha⟩
      refine ⟨hj, by simpa using ha, fun k hk hka => ?_⟩
      have hkj : as.tail[k]'(by omega) = as.tail[j] := (by simpa using hka : as.tail[k] = a).trans ha.symm
      exact absurd ((List.Nodup.getElem_inj_iff htail).mp hkj) (by omega)
  unfold rankIn
  constructor
  · intro h
    split at h
    · next j hj =>
      split at h
      · cases h
        exact (hidx j).mp hj
      · cases h
    · cases h
  · intro h
    rw [(hidx r.val).mpr h]
    exact dif_pos r.isLt

theorem rankIn_spec (has : as.Pairwise (· < ·)) {r : Fin 15} :
    rankIn a as = some r ↔ a ∈ as ∧ ∃ before : Finset Addr, (∀ b, b ∈ before ↔ b ∈ as ∧ b < a) ∧
      before.card = r.val + 1 := by
  have hcard : ∀ {j : Nat}, as[j]? = some a → ((as.take j).toFinset).card = j := fun {j} hj => by
    obtain ⟨hlt, -⟩ := List.getElem?_eq_some_iff.mp hj
    rw [List.toFinset_card_of_nodup ((has.imp fun h => ne_of_lt h).sublist (List.take_sublist j as)),
      List.length_take]
    omega
  rw [rankIn_iff has]
  constructor
  · intro h
    exact ⟨List.mem_of_getElem? h, (as.take (r.val + 1)).toFinset,
      fun b => by rw [List.mem_toFinset, mem_take_iff_lt has h], hcard h⟩
  · rintro ⟨ha, before, hbefore, hcardb⟩
    obtain ⟨j, hj⟩ := List.mem_iff_getElem?.mp ha
    have hsame : before = (as.take j).toFinset :=
      Finset.ext fun b => by rw [hbefore, List.mem_toFinset, mem_take_iff_lt has hj]
    rw [← hcardb, hsame, hcard hj]
    exact hj

end

/-! ## The candidates (R59) -/

theorem candidateList_ascending (d : Delivery) : (candidateList d).Pairwise (· < ·) :=
  (List.pairwise_lt_finRange 16).filter _

theorem mem_candidateList {d : Delivery} {a : Addr} : a ∈ candidateList d ↔
    d.peers[a].presence = .present ∧ ∃ r, d.entries[a] = some r ∧ r.candidate = true := by
  unfold candidateList
  rw [List.mem_filter, Bool.and_eq_true, decide_eq_true_iff]
  refine ⟨fun ⟨_, hp, hr⟩ => ⟨hp, ?_⟩, fun ⟨hp, r, hr, hc⟩ => ⟨List.mem_finRange a, hp, ?_⟩⟩
  · split at hr
    · next r he => exact ⟨r, he, hr⟩
    · cases hr
  · rw [hr]
    exact hc

section
variable {s : State}

/-- Holder and own rank are those that the census gives. -/
def State.Selects (s : State) : Prop :=
  s.beat.holder = (candidateList s.delivery).head? ∧ s.beat.rank = rankIn s.own (candidateList s.delivery)

theorem State.selectHolder_selects (s : State) : s.selectHolder.Selects := ⟨rfl, rfl⟩

/-! ## ENTERING (R57) -/

/-- The holder's report carries another fingerprint (R57). -/
def State.Mismatched (s : State) : Prop :=
  ∃ r, holderReport s.census.entries = some r ∧ r.fingerprint ≠ s.keys.fingerprint

theorem State.enter_mismatched (h : s.Mismatched) : s.enter =
    ({ s.followHolder with beat := { s.followHolder.beat with entCount := 0 } } : State).changeSync .incompatible
      .mismatch := by
  obtain ⟨r, hr, hne⟩ := h
  unfold State.enter
  rw [hr]
  exact if_pos (decide_eq_true hne)

section
variable (h : ¬ s.Mismatched)
include h

theorem State.matched : (match holderReport s.census.entries with
    | some r => decide (r.fingerprint ≠ s.keys.fingerprint)
    | none => false) = false := by
  split
  · next r hr => exact decide_eq_false fun hne => h ⟨r, hr, hne⟩
  · rfl

theorem State.enter_none (hread : s.census.readback = none) : s.enter = (s.followHolder, []) := by
  unfold State.enter
  rw [hread]
  exact if_neg (Bool.eq_false_iff.mp (State.matched h))

theorem State.enter_collided (hread : s.census.readback = some .collision) : s.enter =
    ({ s.followHolder with beat := { s.followHolder.beat with entCount := 0 } }, []) := by
  unfold State.enter
  rw [hread]
  exact if_neg (Bool.eq_false_iff.mp (State.matched h))

theorem State.enter_first (hread : s.census.readback = some .clean) (hcount : s.beat.entCount + 1 < 2) :
    s.enter =
      ({ s.followHolder with beat := { s.followHolder.beat with entCount := s.beat.entCount + 1 } }, []) := by
  unfold State.enter
  rw [hread]
  exact (if_neg (Bool.eq_false_iff.mp (State.matched h))).trans (if_pos hcount)

theorem State.enter_last (hread : s.census.readback = some .clean) (hcount : ¬ s.beat.entCount + 1 < 2) :
    s.enter = ({ s with beat := { s.beat with entCount := 2 } } : State).becomeLocked := by
  unfold State.enter
  rw [hread]
  exact (if_neg (Bool.eq_false_iff.mp (State.matched h))).trans (if_neg hcount)

end

theorem State.enter_selects (h : s.enter.1.beat.sync = .locked) (hs : s.beat.sync = .entering) :
    s.enter.1.Selects := by
  have hstays : ∀ {t : State}, t.beat.sync = s.beat.sync → t.beat.sync = .locked → False := fun he hl => by
    rw [he, hs] at hl
    cases hl
  by_cases hm : s.Mismatched
  · rw [State.enter_mismatched hm] at h
    cases h
  cases hread : s.census.readback with
  | none =>
    rw [State.enter_none hm hread] at h
    exact (hstays rfl h).elim
  | some o =>
    cases o with
    | collision =>
      rw [State.enter_collided hm hread] at h
      exact (hstays rfl h).elim
    | clean =>
      by_cases hcount : s.beat.entCount + 1 < 2
      · rw [State.enter_first hm hread hcount] at h
        exact (hstays rfl h).elim
      · rw [State.enter_last hm hread hcount]
        exact State.selectHolder_selects _

/-- A census close that leaves the node LOCKED selects the holder (R57, R59). -/
theorem State.beatAtCensus_locked_selects {c : Bool} (h : (s.beatAtCensus c).1.beat.sync = .locked) :
    (s.beatAtCensus c).1.Selects := by
  have hmoves := s.beatAtCensus_moves c
  rw [h] at hmoves
  cases hs : s.beat.sync with
  | entering =>
    cases c with
    | true =>
      rw [State.beatAtCensus_true (by rw [hs]; rfl)] at h
      cases h
    | false =>
      rw [State.beatAtCensus_entering hs] at h ⊢
      exact State.enter_selects h hs
  | locked =>
    cases c with
    | true =>
      rw [State.beatAtCensus_true (by rw [hs]; rfl)] at h
      cases h
    | false =>
      rw [State.beatAtCensus_selects hs]
      exact s.selectHolder_selects
  | listen =>
    have hstay : s.beatAtCensus c = (s, []) := by
      unfold State.beatAtCensus
      rw [hs]
    rw [hstay] at h
    exact nomatch hs.symm.trans h
  | aligning | observing | incompatible | conflict => simp [SyncState.mayBecome, hs] at hmoves

end

/-- Settles O34. -/
theorem lockedNodeSelectsTheHolder : Obligations.LockedNodeSelectsTheHolder := by
  intro s hr
  by_cases hrec : s.beat.sync.receives = true
  case neg =>
    have hexec : exec .censusClose s = .next (s.elapseTo 1600) := by
      refine congrArg Host.Outcome.next ?_
      rw [if_neg (by simp [hr])]
      exact if_neg hrec
    have hne : s.beat.sync ≠ .locked := fun h => hrec (by rw [h]; rfl)
    exact ⟨_, hexec, fun h => absurd h hne, fun h => absurd h hne⟩
  have hu : (s.elapseTo 1600).beat.sync.receives = true := hrec
  refine ⟨_, exec_censusClose_receives hr hrec, fun hlocked hno => ⟨?_, fun hstays => ?_⟩, fun hlocked => ?_⟩
  · exact State.censusClose_undiverged_before hu
  · obtain ⟨-, hkeeps, -⟩ := State.beatClosed_reporting (s := s.elapseTo 1600) (.inr hlocked) hno
    rw [(State.censusClose_closesTo hstays).beat]
    exact hkeeps hlocked
  · have hclose := State.censusClose_closesTo (s := s.elapseTo 1600) (hlocked ▸ nofun)
    rw [hclose.beat] at hlocked
    have hselects : (s.elapseTo 1600).beatClosed.1.Selects :=
      State.beatAtCensus_locked_selects (s := (s.elapseTo 1600).closeCensus) hlocked
    obtain ⟨hholder, hrank⟩ := hselects
    have hd : (s.elapseTo 1600).beatClosed.1.delivery =
        { entries := s.census.entries, peers := (s.elapseTo 1600).censusClose.census.peers, m := s.laneCount } :=
      State.delivery_of_closesTo hclose
    have hown : (s.elapseTo 1600).beatClosed.1.own = s.own := State.beatClosed_own _
    rw [hd, hown] at hrank
    rw [hd] at hholder
    have hasc := candidateList_ascending
      { entries := s.census.entries, peers := (s.elapseTo 1600).censusClose.census.peers, m := s.laneCount }
    intro candidate
    have hmem : ∀ a : Addr, a ∈ candidateList
        { entries := s.census.entries, peers := (s.elapseTo 1600).censusClose.census.peers, m := s.laneCount } ↔
        candidate a := fun a => mem_candidateList
    rw [hclose.beat]
    refine ⟨fun a => ?_, ?_, fun r => ?_⟩
    · rw [hholder]
      simp only [← hmem]
      exact head?_ascending_iff hasc
    · rw [hholder]
      simp only [← hmem]
      exact List.head?_eq_none_iff.trans List.eq_nil_iff_forall_not_mem
    · rw [hrank]
      simp only [← hmem]
      exact rankIn_spec hasc

end Sys2Proof.Machine

/-! SUPPORT. The sync state at a census close outside LOCKED (R55 to R58, R72). -/

namespace Sys2Proof.Machine

/-! ## The holder's report (R55) -/

theorem find?_ascending {as : List Addr} {p : Addr → Bool} {a : Addr} (has : as.Pairwise (· < ·)) (ha : a ∈ as)
    (hp : p a = true) (hlow : ∀ b, b < a → p b = false) : as.find? p = some a := by
  induction as with
  | nil => cases ha
  | cons x rest ih =>
    obtain ⟨hx, hrest⟩ := List.pairwise_cons.mp has
    rcases List.mem_cons.mp ha with rfl | ha
    · exact List.find?_cons_of_pos hp
    · rw [List.find?_cons_of_neg (by simp [hlow x (hx a ha)])]
      exact ih hrest ha

/-- A report is the holder's report of a census (R55). -/
def CensusEntries.IsHolder (entries : CensusEntries) (a : Addr) (r : Report) : Prop :=
  entries[a] = some r ∧ r.holder = true ∧ ∀ b, b < a → ∀ x, entries[b] = some x → x.holder = false

/-- No report of a census has the holder flag. -/
def CensusEntries.Silent (entries : CensusEntries) : Prop :=
  ∀ (a : Addr) (r : Report), entries[a] = some r → r.holder = false

section
variable {entries : CensusEntries}

/-- The address has the holder flag in its report. -/
theorem holderAddress_eq (entries : CensusEntries) :
    holderAddress entries = (List.finRange 16).find? fun a => (entries[a]).any (·.holder) := by
  unfold holderAddress
  congr 1
  funext a
  cases entries[a] <;> rfl

/-- The holder's report is that of the holder's address. -/
theorem holderReport_eq (entries : CensusEntries) :
    holderReport entries = (holderAddress entries).bind fun a => entries[a] := by
  rw [holderAddress_eq, holderReport, List.find?_filterMap]

theorem holder_silent (h : entries.Silent) :
    holderAddress entries = none ∧ holderReport entries = none := by
  have hnone : holderAddress entries = none := by
    rw [holderAddress_eq, List.find?_eq_none]
    intro a _
    cases he : entries[a] with
    | none => simp
    | some r => simp [h a r he]
  exact ⟨hnone, by rw [holderReport_eq, hnone]; rfl⟩

theorem holder_found {a : Addr} {r : Report} (h : entries.IsHolder a r) :
    holderAddress entries = some a ∧ holderReport entries = some r := by
  obtain ⟨ha, hholder, hlow⟩ := h
  have hsome : holderAddress entries = some a := by
    rw [holderAddress_eq]
    refine find?_ascending (List.pairwise_lt_finRange 16) (List.mem_finRange a) (by rw [ha]; exact hholder)
      fun b hb => ?_
    cases he : entries[b] with
    | none => rfl
    | some x => exact hlow b hb x he
  exact ⟨hsome, by rw [holderReport_eq, hsome]; exact ha⟩

end

section
variable {s : State}

theorem State.closeCensus_entries (s : State) : s.closeCensus.census.entries = s.census.entries := by
  unfold State.closeCensus
  rfl

theorem State.closeCensus_readback (s : State) : s.closeCensus.census.readback = s.census.readback := by
  unfold State.closeCensus
  rfl

theorem State.followHolder_silent (h : holderAddress s.census.entries = none) :
    s.followHolder.beat.holder = s.beat.holder := by
  unfold State.followHolder
  rw [h]

theorem State.followHolder_found {a : Addr} (h : holderAddress s.census.entries = some a) :
    s.followHolder.beat.holder = some a := by
  unfold State.followHolder
  rw [h]

/-! ## OBSERVING, INCOMPATIBLE (R55, R56) -/

theorem State.observe_silent (h : holderReport s.census.entries = none) : s.observe = (s.followHolder, []) := by
  unfold State.observe
  dsimp only
  rw [show s.followHolder.census.entries = s.census.entries from rfl, h]

section
variable {r : Report} (h : holderReport s.census.entries = some r)
include h

theorem State.observe_first (hf : r.fingerprint = s.keys.fingerprint) (hcount : s.beat.obsCount + 1 < 2) :
    s.observe =
      ({ s.followHolder with beat := { s.followHolder.beat with obsCount := s.beat.obsCount + 1 } }, []) := by
  unfold State.observe
  dsimp only
  rw [show s.followHolder.census.entries = s.census.entries from rfl, h]
  exact (if_pos hf).trans (if_pos hcount)

theorem State.observe_last (hf : r.fingerprint = s.keys.fingerprint) (hcount : ¬ s.beat.obsCount + 1 < 2) :
    s.observe =
      ({ s.followHolder with
          beat := { s.followHolder.beat with obsCount := 2, entCount := 0 }
          census := { s.followHolder.census with ownCollisions := 0 } } : State).changeSync .entering
        .fingerprintOk := by
  unfold State.observe
  dsimp only
  rw [show s.followHolder.census.entries = s.census.entries from rfl, h]
  exact (if_pos hf).trans (if_neg hcount)

theorem State.observe_mismatched (hf : r.fingerprint ≠ s.keys.fingerprint) : s.observe =
    ({ s.followHolder with beat := { s.followHolder.beat with obsCount := 0 } } : State).changeSync .incompatible
      .mismatch := by
  unfold State.observe
  dsimp only
  rw [show s.followHolder.census.entries = s.census.entries from rfl, h]
  exact if_neg hf

theorem State.recheck_matched (hf : r.fingerprint = s.keys.fingerprint) : s.recheck =
    ({ s.followHolder with beat := { s.followHolder.beat with obsCount := 0 } } : State).changeSync .observing
      .matched := by
  unfold State.recheck
  dsimp only
  rw [show s.followHolder.census.entries = s.census.entries from rfl, h]
  exact if_pos hf

theorem State.recheck_mismatched (hf : r.fingerprint ≠ s.keys.fingerprint) :
    s.recheck = (s.followHolder, []) := by
  unfold State.recheck
  dsimp only
  rw [show s.followHolder.census.entries = s.census.entries from rfl, h]
  exact if_neg hf

end

theorem State.recheck_silent (h : holderReport s.census.entries = none) : s.recheck = (s.followHolder, []) := by
  unfold State.recheck
  dsimp only
  rw [show s.followHolder.census.entries = s.census.entries from rfl, h]

/-! ## The census close outside LOCKED -/

/-- A node that is not LOCKED after the beat unit's decisions counts no divergence (R119). -/
theorem State.lanesClosed_divergence_zero (h : s.beat.sync.receives = true)
    (hsync : s.beatClosed.1.beat.sync ≠ .locked) : s.lanesClosed.1.lanes.divergence = 0 := by
  rcases State.lanesClosed_cases h with ⟨-, -, he⟩ | ⟨-, -, he⟩ | ⟨-, -, he⟩ <;> rw [he]
  · rw [State.election_divergence, State.compared_divergence]
    exact if_neg fun hl => hsync hl.1
  · rfl
  · rfl

/-- A node that the beat unit does not make LOCKED ends the census close with the beat unit's decisions. -/
theorem exec_censusClose_unlocked (hr : s.inReset = false) (h : s.beat.sync.receives = true)
    (hsync : (s.elapseTo 1600).beatClosed.1.beat.sync ≠ .locked) :
    ∃ t, exec .censusClose s = .next t ∧ t.beat = (s.elapseTo 1600).beatClosed.1.beat := by
  have hu : (s.elapseTo 1600).beat.sync.receives = true := h
  refine ⟨_, exec_censusClose_receives hr h, State.ClosesTo.beat (State.censusClose_closesTo ?_)⟩
  exact State.censusClose_undiverged hu (by rw [State.lanesClosed_divergence_zero hu hsync]; decide)

theorem State.beatAtCensus_observing (h : s.beat.sync = .observing) (c : Bool) : s.beatAtCensus c = s.observe := by
  unfold State.beatAtCensus
  rw [h]

theorem State.beatAtCensus_incompatible (h : s.beat.sync = .incompatible) (c : Bool) :
    s.beatAtCensus c = s.recheck := by
  unfold State.beatAtCensus
  rw [h]

theorem State.beatAtCensus_inConflict (h : s.beat.sync = .conflict) (c : Bool) :
    s.beatAtCensus c = s.waitConflict := by
  unfold State.beatAtCensus
  rw [h]

theorem State.beatClosed_observing (h : s.beat.sync = .observing) :
    (s.census.entries.Silent → s.beatClosed.1.beat.sync = .observing ∧
      s.beatClosed.1.beat.holder = s.beat.holder ∧ s.beatClosed.1.beat.obsCount = s.beat.obsCount) ∧
    ∀ a r, s.census.entries.IsHolder a r → s.beatClosed.1.beat.holder = some a ∧
      (r.fingerprint = s.keys.fingerprint → s.beat.obsCount = 0 →
        s.beatClosed.1.beat.sync = .observing ∧ s.beatClosed.1.beat.obsCount = 1) ∧
      (r.fingerprint = s.keys.fingerprint → s.beat.obsCount = 1 →
        s.beatClosed.1.beat.sync = .entering ∧ s.beatClosed.1.beat.entCount = 0) ∧
      (r.fingerprint ≠ s.keys.fingerprint →
        s.beatClosed.1.beat.sync = .incompatible ∧ s.beatClosed.1.beat.obsCount = 0) := by
  have hb : s.beatClosed = s.closeCensus.observe := State.beatAtCensus_observing (s := s.closeCensus) h _
  rw [hb]
  refine ⟨fun hs => ?_, fun a r hr => ?_⟩
  · obtain ⟨haddr, hrep⟩ := holder_silent hs
    rw [← s.closeCensus_entries] at haddr hrep
    rw [State.observe_silent (s := s.closeCensus) hrep]
    exact ⟨h, State.followHolder_silent (s := s.closeCensus) haddr, rfl⟩
  · obtain ⟨haddr, hrep⟩ := holder_found hr
    rw [← s.closeCensus_entries] at haddr hrep
    have hholder := State.followHolder_found (s := s.closeCensus) haddr
    by_cases hf : r.fingerprint = s.keys.fingerprint
    · by_cases hcount : s.beat.obsCount + 1 < 2
      · rw [State.observe_first (s := s.closeCensus) hrep hf hcount]
        exact ⟨hholder, fun _ h0 => ⟨h, congrArg (· + 1) h0⟩, fun _ h1 => by omega, fun hne => absurd hf hne⟩
      · rw [State.observe_last (s := s.closeCensus) hrep hf hcount]
        exact ⟨hholder, fun _ h0 => by omega, fun _ _ => ⟨rfl, rfl⟩, fun hne => absurd hf hne⟩
    · rw [State.observe_mismatched (s := s.closeCensus) hrep hf]
      exact ⟨hholder, fun he => absurd he hf, fun he => absurd he hf, fun _ => ⟨rfl, rfl⟩⟩

theorem State.beatClosed_incompatible (h : s.beat.sync = .incompatible) :
    (s.census.entries.Silent → s.beatClosed.1.beat.sync = .incompatible ∧
      s.beatClosed.1.beat.holder = s.beat.holder) ∧
    ∀ a r, s.census.entries.IsHolder a r → s.beatClosed.1.beat.holder = some a ∧
      (r.fingerprint = s.keys.fingerprint →
        s.beatClosed.1.beat.sync = .observing ∧ s.beatClosed.1.beat.obsCount = 0) ∧
      (r.fingerprint ≠ s.keys.fingerprint → s.beatClosed.1.beat.sync = .incompatible) := by
  have hb : s.beatClosed = s.closeCensus.recheck := State.beatAtCensus_incompatible (s := s.closeCensus) h _
  rw [hb]
  refine ⟨fun hs => ?_, fun a r hr => ?_⟩
  · obtain ⟨haddr, hrep⟩ := holder_silent hs
    rw [← s.closeCensus_entries] at haddr hrep
    rw [State.recheck_silent (s := s.closeCensus) hrep]
    exact ⟨h, State.followHolder_silent (s := s.closeCensus) haddr⟩
  · obtain ⟨haddr, hrep⟩ := holder_found hr
    rw [← s.closeCensus_entries] at haddr hrep
    have hholder := State.followHolder_found (s := s.closeCensus) haddr
    by_cases hf : r.fingerprint = s.keys.fingerprint
    · rw [State.recheck_matched (s := s.closeCensus) hrep hf]
      exact ⟨hholder, fun _ => ⟨rfl, rfl⟩, fun hne => absurd hf hne⟩
    · rw [State.recheck_mismatched (s := s.closeCensus) hrep hf]
      exact ⟨hholder, fun he => absurd he hf, fun _ => h⟩

theorem State.beatClosed_inConflict (h : s.beat.sync = .conflict) :
    (∀ a r, s.census.entries.IsHolder a r → s.beatClosed.1.beat.holder = some a) ∧
    (s.census.conflictWait = 0 →
      s.beatClosed.1.beat.sync = .observing ∧ s.beatClosed.1.beat.obsCount = 0) ∧
    (s.census.conflictWait ≠ 0 → s.beatClosed.1.beat.sync = .conflict) := by
  have hb : s.beatClosed = s.closeCensus.waitConflict := State.beatAtCensus_inConflict (s := s.closeCensus) h _
  rw [hb]
  have hholder : ∀ a r, s.census.entries.IsHolder a r → s.closeCensus.followHolder.beat.holder = some a :=
    fun a r hr => State.followHolder_found (by rw [s.closeCensus_entries]; exact (holder_found hr).1)
  unfold State.waitConflict
  dsimp only
  by_cases h0 : s.census.conflictWait = 0
  · rw [if_pos (show s.closeCensus.followHolder.census.conflictWait = 0 from h0)]
    exact ⟨hholder, fun _ => ⟨rfl, rfl⟩,
      fun hne => absurd h0 hne⟩
  · rw [if_neg (show s.closeCensus.followHolder.census.conflictWait ≠ 0 from h0)]
    exact ⟨hholder,
      fun he => absurd he h0, fun _ => h⟩

/-- An ENTERING node that does not become LOCKED follows the holder (R57). -/
theorem State.enter_unlocked (h : s.enter.1.beat.sync ≠ .locked) :
    s.enter.1.beat.holder = s.followHolder.beat.holder := by
  by_cases hm : s.Mismatched
  · rw [State.enter_mismatched hm]
    rfl
  cases hread : s.census.readback with
  | none => rw [State.enter_none hm hread]
  | some o =>
    cases o with
    | collision => rw [State.enter_collided hm hread]
    | clean =>
      by_cases hcount : s.beat.entCount + 1 < 2
      · rw [State.enter_first hm hread hcount]
      · rw [State.enter_last hm hread hcount] at h
        exact absurd rfl h

theorem State.enter_last_own (h : ¬ s.Mismatched) (hread : s.census.readback = some .clean)
    (hcount : ¬ s.beat.entCount + 1 < 2) {a : Addr} (ha : s.own = a) :
    s.enter.1.census.peers[a] = { presence := .present, good := 2, miss := 0 } := by
  subst ha
  rw [State.enter_last h hread hcount]
  exact put_get_self s.census.peers s.own (ownEntry .locked)

/-- The rows of ENTERING, without an own-slot conflict (R57). -/
theorem State.beatClosed_entering (h : s.beat.sync = .entering) (hc : s.slotConflict = false) :
    (∀ a r, s.census.entries.IsHolder a r → s.beatClosed.1.beat.sync ≠ .locked →
      s.beatClosed.1.beat.holder = some a) ∧
    (∀ a r, s.census.entries.IsHolder a r → r.fingerprint ≠ s.keys.fingerprint →
      s.beatClosed.1.beat.sync = .incompatible ∧ s.beatClosed.1.beat.entCount = 0) ∧
    ((s.census.entries.Silent ∨ ∃ a r, s.census.entries.IsHolder a r ∧ r.fingerprint = s.keys.fingerprint) →
      (s.census.readback = some .clean → s.beat.entCount = 0 →
        s.beatClosed.1.beat.sync = .entering ∧ s.beatClosed.1.beat.entCount = 1) ∧
      (s.census.readback = some .clean → s.beat.entCount = 1 →
        s.beatClosed.1.beat.sync = .locked ∧ s.beatClosed.1.beat.candidate = decide (s.beat.barred = 0) ∧
        s.beatClosed.1.census.peers[s.own] = { presence := .present, good := 2, miss := 0 }) ∧
      (s.census.readback = none →
        s.beatClosed.1.beat.sync = .entering ∧ s.beatClosed.1.beat.entCount = s.beat.entCount) ∧
      (s.census.readback = some .collision →
        s.beatClosed.1.beat.sync = .entering ∧ s.beatClosed.1.beat.entCount = 0)) := by
  have hb : s.beatClosed = s.closeCensus.enter := by
    rw [State.beatClosed, hc, State.beatAtCensus_entering (s := s.closeCensus) h]
  rw [hb]
  refine ⟨fun a r hr hne => ?_, fun a r hr hf => ?_, fun hmatch => ?_⟩
  · obtain ⟨haddr, hrep⟩ := holder_found hr
    rw [← s.closeCensus_entries] at haddr hrep
    rw [State.enter_unlocked hne]
    exact State.followHolder_found haddr
  · have hrep := (holder_found hr).2
    rw [← s.closeCensus_entries] at hrep
    rw [State.enter_mismatched ⟨r, hrep, hf⟩]
    exact ⟨rfl, rfl⟩
  · have hm : ¬ s.closeCensus.Mismatched := by
      rintro ⟨x, hx, hf⟩
      rw [s.closeCensus_entries] at hx
      rcases hmatch with hs | ⟨a, r, hr, hfr⟩
      · rw [(holder_silent hs).2] at hx
        cases hx
      · rw [(holder_found hr).2] at hx
        cases hx
        exact hf hfr
    rw [← s.closeCensus_readback]
    refine ⟨fun hread h0 => ?_, fun hread h1 => ?_, fun hread => ?_, fun hread => ?_⟩
    · rw [State.enter_first hm hread (show s.beat.entCount + 1 < 2 by omega)]
      exact ⟨h, congrArg (· + 1) h0⟩
    · have hlast : ¬ s.closeCensus.beat.entCount + 1 < 2 := show ¬ s.beat.entCount + 1 < 2 by omega
      refine ⟨?_, ?_, State.enter_last_own hm hread hlast rfl⟩ <;> rw [State.enter_last hm hread hlast] <;> rfl
    · rw [State.enter_none hm hread]
      exact ⟨h, rfl⟩
    · rw [State.enter_collided hm hread]
      exact ⟨h, rfl⟩

end

/-- Settles O35. -/
theorem censusCloseMovesTheSyncState : Obligations.CensusCloseMovesTheSyncState := by
  intro s hr isHolder silent
  have hunlocked : ∀ {x : SyncState}, s.beat.sync = x → (x = .observing ∨ x = .incompatible ∨ x = .conflict) →
      ∃ t, exec .censusClose s = .next t ∧ t.beat = (s.elapseTo 1600).beatClosed.1.beat := by
    intro x hx hcases
    refine exec_censusClose_unlocked hr ?_ fun hl => ?_
    · rw [hx]
      rcases hcases with rfl | rfl | rfl <;> rfl
    · have hmoves := State.beatAtCensus_moves (s.elapseTo 1600).slotConflict (s.elapseTo 1600).closeCensus
      have hl' : (State.beatAtCensus (s.elapseTo 1600).slotConflict (s.elapseTo 1600).closeCensus).1.beat.sync =
        .locked := hl
      rw [hl', show (s.elapseTo 1600).closeCensus.beat.sync = x from hx] at hmoves
      rcases hcases with rfl | rfl | rfl <;> simp [SyncState.mayBecome] at hmoves
  refine ⟨fun hs => ?_, fun hs => ?_, fun hs => ?_, fun hs hno => ?_, fun hs => ?_⟩
  · obtain ⟨t, hexec, hbeat⟩ := hunlocked hs (.inl rfl)
    have hobserving := State.beatClosed_observing (s := s.elapseTo 1600) hs
    rw [← hbeat] at hobserving
    exact ⟨t, hexec, hobserving⟩
  · obtain ⟨t, hexec, hbeat⟩ := hunlocked hs (.inr (.inl rfl))
    have hrechecks := State.beatClosed_incompatible (s := s.elapseTo 1600) hs
    rw [← hbeat] at hrechecks
    exact ⟨t, hexec, hrechecks⟩
  · obtain ⟨t, hexec, hbeat⟩ := hunlocked hs (.inr (.inr rfl))
    have hwaits := State.beatClosed_inConflict (s := s.elapseTo 1600) hs
    rw [← hbeat] at hwaits
    exact ⟨t, hexec, hwaits⟩
  · have hrec : s.beat.sync.receives = true := by rw [hs]; rfl
    have hu : (s.elapseTo 1600).beat.sync.receives = true := hrec
    refine ⟨_, exec_censusClose_receives hr hrec, State.censusClose_undiverged_before hu, fun hstays => ?_⟩
    have hclose := State.censusClose_closesTo hstays
    rw [hclose.beat, hclose.census]
    exact State.beatClosed_entering (s := s.elapseTo 1600) hs (State.slotConflict_eq_false hno)
  · refine congrArg Host.Outcome.next ?_
    rw [if_neg (by simp [hr])]
    have hno : s.beat.sync.receives = false := by rcases hs with h | h <;> rw [h] <;> rfl
    exact if_neg (Bool.eq_false_iff.mp hno)

end Sys2Proof.Machine

/-! SUPPORT. The release test of a held own lane (R102, R104). -/

namespace Sys2Proof.Machine

/-! ## A lane that is HELD after stage 7 was HELD before it (R95 to R98) -/

theorem giveLanes_held {ok : Lane → LaneEntry → Bool} (ls : List Lane) {t : LaneTable} {cs : List Claim}
    {l : Lane} (h : (giveLanes ok ls t cs).1[l].isHeld = true) : (giveLanes ok ls t cs).1[l] = t[l] := by
  induction ls generalizing t cs with
  | nil => rfl
  | cons k ks ih =>
    cases cs with
    | nil => rfl
    | cons c cs =>
      by_cases hok : ok k t[k] = true
      · have hstep : giveLanes ok (k :: ks) t (c :: cs) = giveLanes ok ks (put t k (grantTo c)) cs := if_pos hok
        rw [hstep] at h ⊢
        have hput := ih h
        rw [hput] at h ⊢
        by_cases hkl : k = l
        · subst hkl
          rw [put_get_self] at h
          cases h
        · exact put_get_ne _ _ hkl
      · have hstep : giveLanes ok (k :: ks) t (c :: cs) = giveLanes ok ks t (c :: cs) := if_neg hok
        rw [hstep] at h ⊢
        exact ih h

theorem stage7_held {p : Policy} {t : LaneTable} {cs : List Claim} {l : Lane}
    (h : (stage7 p t cs)[l].isHeld = true) : (stage7 p t cs)[l] = t[l] := by
  rcases stage7_cases p t cs with he | ⟨c, -, k, -, -, -, he⟩
  · rw [he]
  · rw [he] at h ⊢
    by_cases hkl : k = l
    · subst hkl
      rw [put_get_self] at h
      cases h
    · exact put_get_ne _ _ hkl

/-- The owner of a lane that is HELD after stage 7 has owned it through the stages 1, 2 and 6. -/
theorem elect_held {p : Policy} {d : Delivery} {t : LaneTable} {l : Lane} {a : Addr}
    (h : (elect p d t).after7[l].isHeld = true) (ho : (elect p d t).after7[l].owner = some a) :
    t[l].owner = some a ∧ (elect p d t).Keeps a := by
  have h6 : (elect p d t).after7[l] = (elect p d t).after6[l] := stage7_held h
  have h6' := h
  rw [h6] at h6'
  have h5 : (elect p d t).after6[l] = (stage5 d.m (stage3 d (stage2 d t))
      (claimList d (stage3 d (stage2 d t)))).1[l] := giveLanes_held _ h6'
  have h5' := h6'
  rw [h5] at h5'
  have h3 : (stage5 d.m (stage3 d (stage2 d t)) (claimList d (stage3 d (stage2 d t)))).1[l] =
      (stage3 d (stage2 d t))[l] := giveLanes_held _ h5'
  have ho2 : (elect p d t).after2[l].owner = some a := by
    rw [← ho, h6, h5, h3, stage3_owner]
    rfl
  have hsome : ∀ {u : LaneTable}, u[l].owner = some a → u.laneOf a ≠ none := fun hu hn =>
    LaneTable.laneOf_none.mp hn l hu
  exact ⟨(stage2_owner ho2).1, hsome ho2, hsome (by rwa [← h6]), hsome ho⟩

section
variable {s : State}

/-! ## The release test (Table 6-8) -/

theorem State.idleEligible_iff (t : LaneTable) (l : Lane) (s : State) : s.idleEligible t l = true ↔
    s.keys.straps.lastOn = true ∧ (s.role = .auto ∨ s.role = .chair) ∧ s.detector.outState = .silent ∧
      ∀ k : Lane, k ≠ l → t[k] = .free := by
  simp only [State.idleEligible, Bool.and_eq_true, Bool.or_eq_true, decide_eq_true_iff, List.all_eq_true,
    List.mem_finRange, forall_const, LaneEntry.isFree_iff, or_iff_not_imp_left (a := (_ : Lane) = l), and_assoc]

/-- The release test, row by row (Table 6-8). -/
theorem State.releaseTest_rows (muteAll eligible : Bool) (s : State) :
    let muted := s.keys.muteLatch = true ∨ (s.role = .auto ∧ s.keys.keyA.pressed = true)
    let speaker := s.role = .auto ∨ s.role = .chair
    let revoked := muteAll = true ∧ s.role ≠ .chair
    (revoked → s.releaseTest muteAll eligible = some .revoked) ∧
    (¬ revoked → s.capture.mic = .fault → s.releaseTest muteAll eligible = some .mic) ∧
    (¬ revoked → s.capture.mic = .ok →
      muted ∨ (s.role = .keyed ∧ s.keys.keyA.pressed = false) ∨
        (speaker ∧ s.detector.outState = .silent ∧ eligible = false) →
      s.releaseTest muteAll eligible = some .release) ∧
    (¬ revoked → s.capture.mic = .ok → ¬ muted → ¬ (s.role = .keyed ∧ s.keys.keyA.pressed = false) →
      ¬ (speaker ∧ s.detector.outState = .silent ∧ eligible = false) →
      s.releaseTest muteAll eligible = none) := by
  intro muted speaker revoked
  have hmuted : s.keys.muted = true ↔ muted := s.keys.muted_iff
  have htalk : s.role = .keyed ∧ s.keys.talkHeld = false ↔ s.role = .keyed ∧ s.keys.keyA.pressed = false :=
    and_congr_right fun hk => by
      have hk' : s.keys.straps.role = .keyed := hk
      simp [KeyUnit.talkHeld, hk']
  unfold State.releaseTest
  refine ⟨fun h => if_pos h, fun h hm => ?_, fun h hm hrel => ?_, fun h hm h1 h2 h3 => ?_⟩
  · rw [if_neg h, if_pos hm]
  · rw [if_neg h, if_neg (by rw [hm]; decide)]
    by_cases h1 : muted
    · exact if_pos (hmuted.mpr h1)
    rw [if_neg (fun hx => h1 (hmuted.mp hx))]
    by_cases h2 : s.role = .keyed ∧ s.keys.keyA.pressed = false
    · exact if_pos (htalk.mpr h2)
    rw [if_neg (fun hx => h2 (htalk.mp hx))]
    exact if_pos ((hrel.resolve_left h1).resolve_left h2)
  · rw [if_neg h, if_neg (by rw [hm]; decide), if_neg (fun hx => h1 (hmuted.mp hx)),
      if_neg (fun hx => h2 (htalk.mp hx))]
    exact if_neg h3

/-- What the release test leaves of a HELD own lane that is not closing (R102, R104). -/
theorem State.keepLane_held {t : LaneTable} {muteAll : Bool} {l : Lane} (hheld : t[l].isHeld = true)
    (hopen : s.lanes.releasePending = none) :
    (s.keepLane t muteAll l).lanes.releasePending = s.releaseTest muteAll (s.idleEligible t l) ∧
    (s.keepLane t muteAll l).lanes.idleHold = (match s.releaseTest muteAll (s.idleEligible t l) with
      | some _ => false
      | none => s.lanes.idleHold || s.idleEligible t l) := by
  unfold State.keepLane
  rw [if_pos ⟨hheld, hopen⟩]
  dsimp only
  cases s.releaseTest muteAll (s.idleEligible t l) with
  | none => exact ⟨hopen, rfl⟩
  | some r => exact ⟨rfl, rfl⟩

/-- A lane that stage 1 adopts for another address is not HELD by the own one after the election (R114). -/
theorem State.not_losesLane_of_held {l : Lane} (hl : s.lanes.table.laneOf s.own = some l)
    (hheld : s.elected.after7[l].isHeld = true) (ho : s.elected.after7[l].owner = some s.own) :
    s.losesLane = false := Bool.eq_false_iff.mpr fun hloses => by
  obtain ⟨k, w, hk, hw⟩ := State.losesLane_iff.mp hloses
  rw [hl] at hk
  cases hk
  have howner := (elect_held hheld ho).1
  rw [repairTable_adopted s.winners_one hw] at howner
  have hwo : w.addr = s.own := Option.some.inj howner
  exact (adoption_some hw).2 (hwo ▸ LaneTable.laneOf_some hl)

/-- The own lane that an election leaves HELD is put to the release test when it is not closing (R102, R104). -/
theorem State.election_tested {l : Lane} (hl : s.lanes.table.laneOf s.own = some l)
    (hopen : s.lanes.releasePending = none) (hheld : s.election.1.lanes.table[l].isHeld = true)
    (ho : s.election.1.lanes.table[l].owner = some s.own) :
    let eligible := s.idleEligible s.election.1.lanes.table l
    s.election.1.lanes.releasePending = s.releaseTest (hasMuteAll s.delivery) eligible ∧
    s.election.1.lanes.idleHold = (match s.releaseTest (hasMuteAll s.delivery) eligible with
      | some _ => false
      | none => s.lanes.idleHold || eligible) := by
  rw [State.election_elected] at hheld ho ⊢
  have hloses := State.not_losesLane_of_held hl hheld ho
  rcases State.decided_owner hloses hl with ⟨-, hd⟩ | ⟨hno, -⟩
  · rw [State.election_fst, State.settleOwn_lanes_releasePending, State.settleOwn_lanes_idleHold, hd,
      State.compared_kept hloses]
    exact State.keepLane_held hheld hopen
  · exact absurd (elect_held hheld ho).2 hno

theorem State.settleOwn_listed (h : s.lanes.table.laneOf s.own ≠ none) :
    s.settleOwn.1.lanes.request = .none ∧ s.settleOwn.1.lanes.waitAge = 0 := by
  unfold State.settleOwn
  rw [if_pos (Option.isSome_iff_ne_none.mpr h)]
  exact ⟨rfl, rfl⟩

/-- While the table lists the node its request is NONE (R89). -/
theorem State.election_listed (h : s.election.1.lanes.table.laneOf s.own ≠ none) :
    s.election.1.lanes.request = .none ∧ s.election.1.lanes.waitAge = 0 := by
  rw [State.election_fst]
  refine State.settleOwn_listed ?_
  rwa [State.decided_own, State.decided_table, ← State.election_elected]

/-- What the release test looks at is not moved by census unit and beat unit. -/
theorem State.beatClosed_senses (s : State) : s.beatClosed.1.capture = s.capture ∧
    s.beatClosed.1.detector = s.detector ∧ s.beatClosed.1.keys.straps = s.keys.straps ∧
    s.beatClosed.1.keys.muteLatch = s.keys.muteLatch ∧ s.beatClosed.1.keys.keyA = s.keys.keyA :=
  ⟨State.beatAtCensus_capture _ _, State.beatAtCensus_detector _ _, State.beatAtCensus_keys_straps _ _,
    State.beatAtCensus_keys_muteLatch _ _, State.beatAtCensus_keys_keyA _ _⟩

end

/-- Settles O45: what the release test sees of the node is what the census close found. -/
theorem heldOwnLaneIsTestedForRelease : Obligations.HeldOwnLaneIsTestedForRelease := by
  intro s l hr hlocked hno
  have hrec : s.beat.sync.receives = true := by rw [hlocked]; rfl
  have hu : (s.elapseTo 1600).beat.sync.receives = true := hrec
  refine ⟨_, exec_censusClose_receives hr hrec, State.censusClose_undiverged_before hu, fun hstays => ?_⟩
  have ht := State.censusClose_stays hstays
  have hclose := State.censusClose_closesTo hstays
  obtain ⟨-, hkeeps, -⟩ := State.beatClosed_reporting (s := s.elapseTo 1600) (.inr hlocked) hno
  have hrep : (s.elapseTo 1600).censusClose.beat.sync.reports = true := by
    rw [hclose.beat, hkeeps hlocked]
    rfl
  generalize (s.elapseTo 1600).censusClose = t at *
  have hlanes : t.lanes = (s.elapseTo 1600).beatClosed.1.election.1.lanes := by
    rw [ht, State.raise_lanes, State.lanesClosed_elects hu hclose hrep]
  have hd := State.delivery_of_closesTo hclose
  have hown : (s.elapseTo 1600).beatClosed.1.own = s.own := State.beatClosed_own _
  have hbl : (s.elapseTo 1600).beatClosed.1.lanes = s.lanes := State.beatClosed_lanes _
  obtain ⟨hcapture, hdetector, hstraps, hlatch, hkeyA⟩ : (s.elapseTo 1600).beatClosed.1.capture = s.capture ∧
      (s.elapseTo 1600).beatClosed.1.detector = s.detector ∧
      (s.elapseTo 1600).beatClosed.1.keys.straps = s.keys.straps ∧
      (s.elapseTo 1600).beatClosed.1.keys.muteLatch = s.keys.muteLatch ∧
      (s.elapseTo 1600).beatClosed.1.keys.keyA = s.keys.keyA := State.beatClosed_senses (s.elapseTo 1600)
  have hrole : (s.elapseTo 1600).beatClosed.1.role = s.role := congrArg Straps.role hstraps
  generalize (s.elapseTo 1600).beatClosed.1 = b at *
  refine ⟨fun hlisted => ?_, fun hl hopen hheld => ?_⟩
  · rw [hlanes] at hlisted ⊢
    exact State.election_listed (by rwa [hown])
  · obtain ⟨k, age, score, idle, hheld⟩ := hheld
    intro muteAll muted speaker eligible
    obtain ⟨hpending, hidle⟩ := State.election_tested (s := b) (l := l) (by rw [hbl, hown, hl])
      (by rw [hbl, hopen]) (by rw [← hlanes, hheld]; rfl) (by rw [← hlanes, hheld, hown]; rfl)
    have heligible : b.idleEligible b.election.1.lanes.table l = true ↔ eligible := by
      rw [State.idleEligible_iff, hstraps, hrole, hdetector, ← hlanes]
    have hineligible : b.idleEligible b.election.1.lanes.table l = false ↔ ¬ eligible := by
      rw [← heligible, Bool.not_eq_true]
    have hmute : hasMuteAll b.delivery = true ↔ muteAll := by
      rw [hasMuteAll_iff, hd]
      rfl
    have hrows := State.releaseTest_rows (hasMuteAll b.delivery) (b.idleEligible b.election.1.lanes.table l) b
    rw [hrole, hlatch, hkeyA, hcapture, hdetector, hmute, hineligible, ← hpending] at hrows
    obtain ⟨hrevoked, hmic, hrelease, hkept⟩ := hrows
    rw [hlanes]
    refine ⟨hrevoked, hmic, hrelease, fun h1 h2 h3 h4 h5 => ⟨hkept h1 h2 h3 h4 h5, ?_⟩, fun hne => ?_⟩
    · have hnone := hpending.symm.trans (hkept h1 h2 h3 h4 h5)
      rw [hnone] at hidle
      rw [hidle, hbl, Bool.or_eq_true, heligible]
    · obtain ⟨reason, hreason⟩ := Option.ne_none_iff_exists'.mp hne
      rw [← hpending, hreason] at hidle
      exact hidle

end Sys2Proof.Machine

/-! SUPPORT. The divergence counter and the rejoin on divergence (R119 to R122). -/

namespace Sys2Proof.Machine

/-! ## The comparison as a majority (R119) -/

/-- The addresses whose reports are compared. -/
def comparedAddrs (own : Addr) (d : Delivery) : Finset Addr :=
  ((List.finRange 16).filter fun a =>
    (if a = own ∨ d.peers[a].presence = .present then d.entries[a] else none).isSome).toFinset

/-- The addresses whose reports differ. -/
def differingAddrs (own : Addr) (d : Delivery) (standing : BitVec 16) : Finset Addr :=
  ((differingReports own d standing).map (·.1)).toFinset

section
variable {own : Addr} {d : Delivery} {standing : BitVec 16} {a : Addr}

theorem mem_comparedAddrs : a ∈ comparedAddrs own d ↔
    (∃ r, d.entries[a] = some r) ∧ (a = own ∨ d.peers[a].presence = .present) := by
  unfold comparedAddrs
  rw [List.mem_toFinset, List.mem_filter]
  by_cases ha : a = own ∨ d.peers[a].presence = .present
  · rw [if_pos ha, Option.isSome_iff_exists]
    exact ⟨fun h => ⟨h.2, ha⟩, fun h => ⟨List.mem_finRange a, h.1⟩⟩
  · rw [if_neg ha]
    exact ⟨fun h => (nomatch h.2), fun h => absurd h.2 ha⟩

theorem comparedAddrs_card : (comparedAddrs own d).card = (comparisonSet own d).length := by
  unfold comparedAddrs comparisonSet
  rw [List.toFinset_card_of_nodup ((List.nodup_finRange 16).filter _), List.length_filterMap_eq_countP,
    List.countP_eq_length_filter]

theorem mem_differingAddrs {r : Report} (hown : d.entries[own] = some r) : a ∈ differingAddrs own d standing ↔
    a ∈ comparedAddrs own d ∧ ∃ x, d.entries[a] = some x ∧ x.digest ≠ r.digest := by
  have hdigest : comparedDigest own d standing = r.digest := by
    unfold comparedDigest
    rw [hown]
  rw [mem_comparedAddrs, differingAddrs, List.mem_toFinset, List.mem_map]
  constructor
  · rintro ⟨⟨b, z⟩, hb, rfl⟩
    obtain ⟨hz, hp, x, hx, rfl⟩ := mem_differingReports.mp hb
    exact ⟨⟨⟨x, hx⟩, hp⟩, x, hx, hdigest ▸ hz⟩
  · rintro ⟨⟨-, hp⟩, x, hx, hz⟩
    exact ⟨(a, x.digest), mem_differingReports.mpr ⟨hdigest ▸ hz, hp, x, hx, rfl⟩, rfl⟩

theorem differingAddrs_card :
    (differingAddrs own d standing).card = (differing own d standing).length := by
  have hnodup : ((differingReports own d standing).map (·.1)).Nodup :=
    List.pairwise_map.mpr (differingReports_ascending.imp fun h => h.ne)
  rw [differingAddrs, List.toFinset_card_of_nodup hnodup, List.length_map, differing_eq, List.length_map]

theorem isDivergent_iff : isDivergent own d standing = true ↔
    (comparedAddrs own d).card < 2 * (differingAddrs own d standing).card := by
  rw [isDivergent, decide_eq_true_iff, comparedAddrs_card, differingAddrs_card]

end

/-! ## The census close with another divergence counter -/

/-- The same state with divergence counter `n`. -/
def State.withDivergence (n : Nat) (s : State) : State := { s with lanes := { s.lanes with divergence := n } }

section
variable {s : State} {n : Nat}

theorem State.cutOwnLane_withDivergence (g : GateReason) (n : Nat) (s : State) :
    (s.withDivergence n).cutOwnLane g = ((s.cutOwnLane g).1.withDivergence n, (s.cutOwnLane g).2) := by
  unfold State.cutOwnLane
  rw [show (s.withDivergence n).lanes.table.laneOf (s.withDivergence n).own = s.lanes.table.laneOf s.own from rfl]
  cases s.lanes.table.laneOf s.own <;> rfl

theorem State.keepLane_withDivergence (t : LaneTable) (m : Bool) (l : Lane) (n : Nat) (s : State) :
    (s.withDivergence n).keepLane t m l = (s.keepLane t m l).withDivergence n := by
  unfold State.keepLane
  rw [show (s.withDivergence n).lanes.releasePending = s.lanes.releasePending from rfl,
    show (s.withDivergence n).idleEligible t l = s.idleEligible t l from rfl]
  dsimp only
  rw [show (s.withDivergence n).releaseTest m (s.idleEligible t l) = s.releaseTest m (s.idleEligible t l) from rfl]
  split
  · split <;> rfl
  · rfl

theorem State.ownerSide_withDivergence (b : LaneTable) (lost m : Bool) (r : ElectionResult) (n : Nat)
    (s : State) : (s.withDivergence n).ownerSide b lost m r =
      ((s.ownerSide b lost m r).1.withDivergence n, (s.ownerSide b lost m r).2) := by
  unfold State.ownerSide
  rw [show (s.withDivergence n).own = s.own from rfl]
  repeat' (first | rfl | exact congrArg (·, []) (State.keepLane_withDivergence _ _ _ _ _) | split)

theorem State.settleOwn_withDivergence (n : Nat) (s : State) :
    (s.withDivergence n).settleOwn = (s.settleOwn.1.withDivergence n, s.settleOwn.2) := by
  unfold State.settleOwn
  rw [show (s.withDivergence n).lanes.table.laneOf (s.withDivergence n).own = s.lanes.table.laneOf s.own from rfl]
  split <;> rfl

theorem State.repaired_withDivergence (n : Nat) (s : State) :
    (s.withDivergence n).repaired = (s.repaired.1.withDivergence n, s.repaired.2) := by
  have hloses : (s.withDivergence n).losesLane = s.losesLane := rfl
  cases hl : s.losesLane with
  | true =>
    rw [State.repaired_lost (hloses.trans hl), State.repaired_lost hl]
    exact State.cutOwnLane_withDivergence _ _ _
  | false => rw [State.repaired_kept (hloses.trans hl), State.repaired_kept hl]

theorem State.elected_withDivergence (n : Nat) (s : State) : (s.withDivergence n).elected = s.elected := by
  unfold State.elected
  rw [State.repaired_withDivergence]
  rfl

/-- The digest comparison of a divergent census, when the counter has left 0 (R119, R120). -/
theorem State.compared_withDivergence (hlocked : s.beat.sync = .locked)
    (hd : isDivergent s.own s.delivery s.lanes.digest = true) (hn : n ≠ 0) (h0 : s.lanes.divergence ≠ 0) :
    (s.withDivergence n).compared = (s.compared.1.withDivergence (n + 1), s.compared.2) := by
  have hcount : (s.withDivergence n).compared.1.lanes.divergence = n + 1 := by
    rw [State.compared_divergence]
    exact if_pos ⟨hlocked, hd⟩
  have hstate : (s.withDivergence n).compared.1 = s.compared.1.withDivergence (n + 1) := by
    rw [State.compared_frame, hcount, State.repaired_withDivergence, State.elected_withDivergence, s.compared_frame]
    rfl
  have hrecords : (s.withDivergence n).compared.2 = s.compared.2 := by
    rw [State.compared_records, State.compared_records]
    exact (if_neg fun h => hn h.2.2).trans (if_neg fun h => h0 h.2.2).symm
  exact Prod.ext hstate hrecords

theorem State.election_withDivergence (hlocked : s.beat.sync = .locked)
    (hd : isDivergent s.own s.delivery s.lanes.digest = true) (hn : n ≠ 0) (h0 : s.lanes.divergence ≠ 0) :
    (s.withDivergence n).election = (s.election.1.withDivergence (n + 1), s.election.2) := by
  have hdecided : (s.withDivergence n).decided = (s.decided.1.withDivergence (n + 1), s.decided.2) := by
    unfold State.decided
    rw [State.compared_withDivergence hlocked hd hn h0, State.elected_withDivergence]
    exact State.ownerSide_withDivergence _ _ _ _ _ _
  rw [State.election_eq, State.election_eq, hdecided, State.settleOwn_withDivergence,
    State.compared_withDivergence hlocked hd hn h0, State.repaired_withDivergence]
  rfl

/-! ## A LOCKED node with its own report (R119, R120) -/

theorem State.beatClosed_locked (hlocked : s.beat.sync = .locked) (hc : s.slotConflict = false) :
    s.beatClosed = (s.closeCensus.selectHolder, []) := by
  rw [State.beatClosed, hc]
  exact State.beatAtCensus_selects (s := s.closeCensus) hlocked

theorem State.beatClosed_sync_locked (hlocked : s.beat.sync = .locked) (hc : s.slotConflict = false) :
    s.beatClosed.1.beat.sync = .locked := by
  rw [State.beatClosed, State.beatAtCensus_locked (s := s.closeCensus) hlocked, hc]
  rfl

theorem State.lanesClosed_locked (hlocked : s.beat.sync = .locked) (hc : s.slotConflict = false) :
    s.lanesClosed = s.beatClosed.1.election := by
  rw [State.lanesClosed]
  exact State.lanesAtCensus_elects (.inr (State.beatClosed_sync_locked hlocked hc)) _

/-- The delivery that a LOCKED node's census close works on. -/
theorem State.beatClosed_delivery_locked (hlocked : s.beat.sync = .locked) (hc : s.slotConflict = false) :
    s.beatClosed.1.delivery =
      { entries := s.census.entries
        peers := updatePeers s.own s.keys.fingerprint s.census.entries s.census.peers, m := s.laneCount } := by
  have hpeers : s.beatClosed.1.census.peers =
      updatePeers s.own s.keys.fingerprint s.census.entries s.census.peers := by
    rw [State.beatClosed_locked hlocked hc]
    unfold State.selectHolder State.closeCensus
    rfl
  rw [State.delivery, hpeers, s.beatClosed_entries, s.beatClosed_laneCount]

theorem State.lanesClosed_divergence (hlocked : s.beat.sync = .locked) (hc : s.slotConflict = false) :
    s.lanesClosed.1.lanes.divergence =
      if isDivergent s.own s.beatClosed.1.delivery s.lanes.digest = true then s.lanes.divergence + 1 else 0 := by
  have hsync := State.beatClosed_sync_locked hlocked hc
  rw [State.lanesClosed_locked hlocked hc, State.election_divergence, State.compared_divergence, s.beatClosed_own,
    s.beatClosed_lanes]
  simp only [hsync, true_and]

/-- A divergence counter that has left 0 changes nothing else of a census close (R119, R121). -/
theorem State.lanesClosed_withDivergence (hlocked : s.beat.sync = .locked) (hc : s.slotConflict = false)
    (hd : isDivergent s.own s.beatClosed.1.delivery s.lanes.digest = true) (hn : n ≠ 0)
    (h0 : s.lanes.divergence ≠ 0) :
    (s.withDivergence n).lanesClosed = (s.lanesClosed.1.withDivergence (n + 1), s.lanesClosed.2) ∧
    (s.withDivergence n).closeRecords = s.closeRecords := by
  have hb := State.beatClosed_locked hlocked hc
  have hb' : (s.withDivergence n).beatClosed = (s.beatClosed.1.withDivergence n, s.beatClosed.2) := by
    rw [State.beatClosed_locked (s := s.withDivergence n) hlocked hc, hb]
    rfl
  have hsync := State.beatClosed_sync_locked hlocked hc
  have hlanes : (s.withDivergence n).lanesClosed = (s.lanesClosed.1.withDivergence (n + 1), s.lanesClosed.2) := by
    rw [State.lanesClosed_locked (s := s.withDivergence n) hlocked hc, State.lanesClosed_locked hlocked hc, hb']
    refine State.election_withDivergence hsync ?_ hn ?_
    · rwa [s.beatClosed_own, s.beatClosed_lanes]
    · rwa [s.beatClosed_lanes]
  refine ⟨hlanes, ?_⟩
  rw [State.closeRecords, hlanes, hb']
  rfl

/-! ## The rejoin (R122) -/

/-- What a rejoin on divergence leaves, after records `bs`, compared with the state `v` that a census close with
a counter below 4 leaves. -/
theorem State.rejoin_diverged {x : State} (n : Nat) (bs : List RecordBody) :
    let v := (x.withDivergence n).raise bs
    let t := (x.rejoin .diverged).1.raise (bs ++ (x.rejoin .diverged).2)
    t.OffTheLine ∧
    t.status = v.status.pushAll x.beat.cycle
      ([.sync .listen .diverged none] ++
        (match v.lanes.table.laneOf x.own with
          | some l => [.gate l false .lost]
          | none => []) ++
        (if v.lanes.request = .none then [] else [.request .none 0])) ∧
    t.beat.timer = v.beat.timer ∧ t.beat.cycle = v.beat.cycle ∧ t.capture = v.capture ∧
    t.detector = v.detector ∧ t.arbiter = v.arbiter.endTransmitter ∧
    t.keys = { v.keys with blinkCount := 0 } ∧
    t.line.tx = (v.line.tx.map fun y => { y with bits := y.bits.take (y.sent + 1) }) ∧
    t.line.candidate = v.line.candidate ∧ t.line.beatQuiet = v.line.beatQuiet ∧
    t.mix.refAge = v.mix.refAge ∧ t.mix.oclk = v.mix.oclk ∧ t.mix.frame = v.mix.frame ∧
    t.audio.unlisted = v.audio.unlisted ∧
    t.inReset = x.inReset ∧ t.pending = x.pending ∧ t.cycleStarts = x.cycleStarts := by
  intro v t
  have hline : t.line = x.line.rejoin := x.rejoin_line .diverged
  have hmix : t.mix = { x.mix.rejoin with sets := x.closeLanes.mix.sets } := x.rejoin_mix .diverged
  have haudio : t.audio = { LaneAudio.reset with unlisted := x.audio.unlisted } := x.rejoin_audio .diverged
  refine ⟨(x.rejoin_offTheLine .diverged).raise _, ?_, x.rejoin_beat_timer .diverged, x.rejoin_beat_cycle .diverged,
    x.rejoin_capture .diverged, x.rejoin_detector .diverged, x.rejoin_arbiter .diverged,
    x.rejoin_keys .diverged, ?_, ?_, ?_, ?_, ?_, ?_, ?_, x.rejoin_inReset .diverged, x.rejoin_pending .diverged,
    x.rejoin_cycleStarts .diverged⟩
  · have hstatus : t.status = (x.status.pushAll x.beat.cycle bs).pushAll x.beat.cycle (x.rejoin .diverged).2 := by
      show (x.rejoin .diverged).1.status.pushAll (x.rejoin .diverged).1.beat.cycle _ = _
      rw [State.rejoin_status, State.rejoin_beat_cycle, StatusPort.pushAll, List.foldl_append]
      rfl
    rw [hstatus, State.rejoin_records]
    rfl
  · rw [hline]
    rfl
  · rw [hline]
    rfl
  · rw [hline]
    rfl
  · rw [hmix]
    rfl
  · rw [hmix]
    rfl
  · rw [hmix]
    rfl
  · rw [haudio]
    rfl

theorem State.censusClose_diverged (h : 4 ≤ s.lanesClosed.1.lanes.divergence) : s.censusClose =
    (s.lanesClosed.1.rejoin .diverged).1.raise (s.closeRecords ++ (s.lanesClosed.1.rejoin .diverged).2) := by
  rcases s.lanesClosed.1.rejoinIfDiverged_cases with ⟨-, hr⟩ | ⟨hlt, -⟩
  · rw [State.censusClose_eq, hr]
    rfl
  · omega

/-- What the census close leaves alone before a rejoin. -/
theorem State.lanesClosed_node (s : State) : s.lanesClosed.1.inReset = s.inReset ∧
    s.lanesClosed.1.pending = s.pending ∧ s.lanesClosed.1.cycleStarts = s.cycleStarts ∧
    s.lanesClosed.1.beat.cycle = s.beat.cycle ∧ s.lanesClosed.1.own = s.own := by
  refine ⟨s.lanesClosed_inReset, ?_, ?_, ?_, ?_⟩
  · rw [State.lanesClosed, State.lanesAtCensus_pending]
    exact State.beatAtCensus_pending _ _
  · rw [State.lanesClosed, State.lanesAtCensus_cycleStarts]
    exact State.beatAtCensus_cycleStarts _ _
  · rw [State.lanesClosed_beat]
    exact State.beatAtCensus_beat_cycle _ _
  · rw [State.lanesClosed, State.lanesAtCensus_own]
    exact s.beatClosed_own

/-- The census close of a divergent census with the counter at 2 (R119). -/
theorem exec_censusClose_withDivergence (hr : s.inReset = false) (hlocked : s.beat.sync = .locked)
    (hc : (s.elapseTo 1600).slotConflict = false)
    (hd : isDivergent (s.elapseTo 1600).own (s.elapseTo 1600).beatClosed.1.delivery
      (s.elapseTo 1600).lanes.digest = true) (h0 : s.lanes.divergence ≠ 0) :
    exec .censusClose (s.withDivergence 2) = .next
      (((s.elapseTo 1600).lanesClosed.1.withDivergence 3).raise (s.elapseTo 1600).closeRecords) := by
  have hrec : (s.withDivergence 2).beat.sync.receives = true := by
    have hsync : (s.withDivergence 2).beat.sync = .locked := hlocked
    rw [hsync]
    rfl
  obtain ⟨hlanes, hrecords⟩ := State.lanesClosed_withDivergence (n := 2) (s := s.elapseTo 1600) hlocked hc hd
    (by decide) h0
  have hu : (s.withDivergence 2).elapseTo 1600 = (s.elapseTo 1600).withDivergence 2 := rfl
  have hne : ((s.elapseTo 1600).withDivergence 2).censusClose.beat.sync ≠ .listen :=
    State.censusClose_undiverged hrec (by rw [hlanes]; exact (by decide : (3 : Nat) < 4))
  rw [exec_censusClose_receives (s := s.withDivergence 2) hr hrec, hu, State.censusClose_stays hne, hrecords,
    hlanes]

end

/-- Settles O36. -/
theorem divergenceCountsAndRejoins : Obligations.DivergenceCountsAndRejoins := by
  intro s own hr hlocked hno hown peers
  have hrec : s.beat.sync.receives = true := by rw [hlocked]; rfl
  have hu : (s.elapseTo 1600).beat.sync.receives = true := hrec
  have hlocked' : (s.elapseTo 1600).beat.sync = .locked := hlocked
  have hc : (s.elapseTo 1600).slotConflict = false := State.slotConflict_eq_false hno
  have hd : (s.elapseTo 1600).beatClosed.1.delivery =
      { entries := s.census.entries, peers := peers, m := s.laneCount } :=
    State.beatClosed_delivery_locked hlocked' hc
  have hdiv : (s.elapseTo 1600).lanesClosed.1.lanes.divergence = if isDivergent s.own
      { entries := s.census.entries, peers := peers, m := s.laneCount } s.lanes.digest = true then
        s.lanes.divergence + 1 else 0 := by
    rw [← hd]
    exact State.lanesClosed_divergence hlocked' hc
  have hstays : (s.elapseTo 1600).lanesClosed.1.lanes.divergence < 4 →
      (s.elapseTo 1600).censusClose.beat.sync = .locked ∧ (s.elapseTo 1600).censusClose.lanes.divergence =
        (s.elapseTo 1600).lanesClosed.1.lanes.divergence := fun hlt => by
    have hne := State.censusClose_undiverged hu hlt
    refine ⟨?_, by rw [State.censusClose_stays hne, State.raise_lanes]⟩
    rw [(State.censusClose_closesTo hne).beat]
    exact State.beatClosed_sync_locked hlocked' hc
  refine ⟨_, comparedAddrs s.own { entries := s.census.entries, peers := peers, m := s.laneCount },
    differingAddrs s.own { entries := s.census.entries, peers := peers, m := s.laneCount } s.lanes.digest,
    fun a => mem_comparedAddrs, fun a => mem_differingAddrs hown, exec_censusClose_receives hr hrec,
    fun hle => ?_, fun hlt hlow => ?_, fun hlt hhigh => ?_⟩
  · rw [if_neg fun h => absurd (isDivergent_iff.mp h) (not_lt.mpr hle)] at hdiv
    obtain ⟨hsync, hcount⟩ := hstays (by omega)
    exact ⟨hsync, hcount.trans hdiv⟩
  · rw [if_pos (isDivergent_iff.mpr hlt)] at hdiv
    obtain ⟨hsync, hcount⟩ := hstays (by omega)
    exact ⟨hsync, hcount.trans hdiv⟩
  · rw [if_pos (isDivergent_iff.mpr hlt)] at hdiv
    have hx := State.censusClose_diverged (s := s.elapseTo 1600) (by omega)
    have hexec := exec_censusClose_withDivergence hr hlocked hc (by
      show isDivergent s.own (s.elapseTo 1600).beatClosed.1.delivery s.lanes.digest = true
      rw [hd]
      exact isDivergent_iff.mpr hlt) (by omega)
    obtain ⟨hreset, hpending, hstarts, hcycle, hxown⟩ := (s.elapseTo 1600).lanesClosed_node
    have hsync : (s.elapseTo 1600).lanesClosed.1.beat.sync = .locked := by
      rw [State.lanesClosed_beat]
      exact State.beatClosed_sync_locked hlocked' hc
    generalize (s.elapseTo 1600).lanesClosed.1 = x at *
    obtain ⟨hoff, hstatus, htimer, hcyclev, hcapture, hdetector, harbiter, hkeys, htx, hcand, hquiet, href, hoclk,
      hframe, hunlisted, hin, hpend, hstart⟩ := State.rejoin_diverged (x := x) 3 (s.elapseTo 1600).closeRecords
    rw [hx]
    rw [hcycle, hxown] at hstatus
    exact ⟨hoff, _, hexec, hsync, rfl, hstatus, htimer, hcyclev, hcapture, hdetector, harbiter, hkeys, htx, hcand,
      hquiet, href, hoclk, hframe, hunlisted, hin.trans (hreset.trans hr), hpend.trans hpending,
      hstart.trans hstarts⟩

end Sys2Proof.Machine
